-- ==== Sys2Proof/Word.lean ====
section
/-! DEFINITION. The words of the block: a Sample of W = 8 bits (R8) and a slot index of 2 bits (R42).
Every value is unsigned, bit 0 the least significant (R13). -/

namespace Sys2Proof

/-- A Sample, the width W = 8 of `cnt`, of each `slot[i]`, of each `snap[i]` and of `result` (R8, R33). -/
abbrev Sample := BitVec 8

/-- A physical slot index, 0 to 3; an index of 4 or more cannot be formed (R42, R46). -/
abbrev SlotIdx := BitVec 2

/-- One cycle's inputs packed as the stimulus word rst_i, pin_i, tick_i, cmd_i[2:0] (R72). -/
abbrev StimWord := BitVec 6

end Sys2Proof
end

