-- ==== Sys2Proof/Config.lean ====
section
/-! DEFINITION. What the configuration fixes (R7, R8) and the values the spec leaves open: the parameter
ZERO_REFERENCE (R9), the reset contents SLOT_RESET and SNAP_RESET (R28, R32) and the free inputs of a cycle (R12).
An open value is an opaque constant: nothing proves what it is, so a claim holds for every value of it. -/

namespace Sys2Proof

/-- N, the ring capacity (R7, R93). -/
def Config.capacity : Nat := 4

/-- W = TICK_WIDTH, fixed at 8 (R8; log entry 8). -/
def Config.tickWidth : Nat := 8

/-- The tick widths the spec admits: W > 8 is refused, no narrowing rule exists (R8, U9). -/
def Config.widthAdmitted (w : Nat) : Bool := 1 ≤ w && w ≤ 8

/-- ZERO_REFERENCE, an open constant of the configuration (R9, D3; DESIGN CHOICE, log entry 1, safe). -/
opaque Config.zeroReference : Sample

/-- SLOT_RESET: what slot `i` holds after the reset numbered `draw` until it is written
(R28, R123: unspecified, drawn afresh; DESIGN CHOICE, log entry 2, safe). -/
opaque Config.slotReset (draw : Nat) (i : SlotIdx) : Sample

/-- SNAP_RESET: what `snap[0..3]` holds after the reset numbered `draw` until the first snapshot
(R32, R123: unspecified, drawn afresh; DESIGN CHOICE, log entry 3, safe). -/
opaque Config.snapReset (draw : Nat) : Vector Sample 4

/-- The inputs of a cycle for which the outside world has scheduled none: free inputs
(R12, R35; DESIGN CHOICE, log entry 5, safe). -/
opaque Config.freeInput (cycle : Nat) : StimWord

end Sys2Proof
end

