-- ==== Sys2Proof/Machine/State.lean ====
section
/-! DEFINITION. The state record (R18), the model's own fields beside it, the reasons a step could stop, and the state
right after reset (R36). -/

namespace Sys2Proof.Machine

/-- The ring storage: (slot address, Sample) cells, strictly rising by address, one for each slot written since the
last reset. A slot that is not listed holds its unspecified reset value (R27, R28; log entries 2 and 11). -/
abbrev Memory := List Host.Cell

/-- The value an internal operation hands to its invoker (R69), kept when `exec` runs one on its own
(the model's own; DESIGN CHOICE, log entry 6). -/
inductive IntOut where
  /-- No internal operation has handed back a value yet. -/
  | none
  /-- EDGE, ISFULL. -/
  | bit (b : Bool)
  /-- ELEMENTAT, MEDIAN4, MEDIANORZERO, REBASE. -/
  | sample (v : Sample)
  /-- SNAPSHOT, SORT4: four values. -/
  | four (v : Vector Sample 4)
  /-- CAPACITY. -/
  | count (n : Nat)
  deriving DecidableEq, Repr

/-- The state of the block (R18) and the model's own fields. -/
structure State where
  /-- `irq_en`: pin changes are edge events (R19). -/
  irqEn : Bool
  /-- `run`: the accumulator counts; `Measuring` when set, `Idle` when clear (R20). -/
  run : Bool
  /-- `cnt`: the tick accumulator (R21). -/
  cnt : Sample
  /-- `pin_q`: the pin in the previous cycle (R22). -/
  pinQ : Bool
  /-- `slot[0..3]`: the ring storage (R27). -/
  slots : Memory
  /-- `widx`: the next slot to overwrite (R25). -/
  widx : SlotIdx
  /-- `full`: four samples have been written since reset (R26). -/
  full : Bool
  /-- `snap[0..3]`: the last atomic snapshot (R31). -/
  snap : Vector Sample 4
  /-- `result`: the last value returned by a read command, output `rdata_o` (R33). -/
  result : Sample
  /-- `rvalid`: `result` was written in the previous cycle, output `rvalid_o` (R33). -/
  rvalid : Bool
  /-- `inited`: an INIT was issued since reset, the spec's model-only bit (R34). -/
  inited : Bool
  /-- The model's own: an INIT was issued with `inited = 1` since reset, a run the source does not support
  (R17, R113; log entry 7). -/
  reinit : Bool
  /-- The model's own: what the last internal operation executed on its own handed back (log entry 6). -/
  intOut : IntOut
  /-- The model's own: which draw of SLOT_RESET and SNAP_RESET is in force (R123; log entry 4). -/
  draw : Nat
  /-- The model's own: the stimulus words fixed for the coming cycles, oldest first (R72; log entry 5). -/
  stim : List StimWord
  /-- The model's own: the number of cycles stepped, the index of a free input (log entry 5). -/
  cycle : Nat
  deriving DecidableEq, Repr

/-- The hardware reports no fault: "every operation is total" (R16, R131). There is no constructor, so no step
faults; safe. -/
inductive Fault where
  deriving DecidableEq, Repr

/-- Why the model declines to run an operation. -/
inductive Refusal where
  /-- Raised by an arm of `exec` for an operation without a meaning; no arm raises it (safe). -/
  | notModelled (mnemonic : String)
  deriving DecidableEq, Repr

/-- The state right after reset (R36). No slot is listed and `snap` is a free value: both are unspecified
(R28, R32; log entries 2 and 3). The model's own fields start empty or at 0 (log entries 4 to 7). -/
def State.reset : State where
  irqEn := false
  run := false
  cnt := 0#8
  pinQ := false
  slots := []
  widx := 0#2
  full := false
  snap := Config.snapReset 0
  result := 0#8
  rvalid := false
  inited := false
  reinit := false
  intOut := .none
  draw := 0
  stim := []
  cycle := 0

end Sys2Proof.Machine
end

