-- ==== Sys2Proof/Machine/Flags.lean ====
section
/-! DEFINITION. The computations of the block's one-bit status fields (R29). -/

namespace Sys2Proof.Machine

/-- EDGE: events are enabled and the pin differs from its level of the previous cycle (R77). -/
def edgeBit (irqEn pinQ pin : Bool) : Bool := irqEn && (pin != pinQ)

/-- `full` after an ADD at index `widx`: set by the ADD that writes slot 3, never cleared by one (R90, R26). -/
def fullAfterAdd (widx : SlotIdx) (full : Bool) : Bool := full || widx == 3#2

/-- `reinit` after an INIT: set when an INIT had been issued before (R113; log entry 7). -/
def reinitAfterInit (inited reinit : Bool) : Bool := reinit || inited

end Sys2Proof.Machine
end

