-- ==== Sys2Proof/Syntax.lean ====
section
/-! DEFINITION. The operations of spec/opcode_table.json, one constructor per row, the formats of R64, R72 and
R75, and the stimulus lines of R73 and R74. The bits a pattern leaves open ("x") are the operands of its constructor. -/

namespace Sys2Proof

/-- The formats (R64, R72, R75). `int` has no selecting bits (R69). -/
inductive Format where
  | cmd | evt | rst | always | stim | int
  deriving DecidableEq, Repr

/-- One constructor per row of the opcode table. -/
inductive Instr where
  /-- CMD 000 (R110). -/
  | nop
  /-- CMD 001, init() (R111). -/
  | init
  /-- CMD 010, stop() (R114). -/
  | stop
  /-- CMD 011, getValue() (R117). -/
  | getValue
  /-- CMD 100, getMedianValue() (R105). -/
  | getMedian
  /-- CMD 101, reserved (R119). -/
  | rsv5
  /-- CMD 110, reserved (R119). -/
  | rsv6
  /-- CMD 111, reserved (R119). -/
  | rsv7
  /-- EVT 101xx: low to high (R79). -/
  | rise (run tick : Bool)
  /-- EVT 110xx: high to low (R80). -/
  | fall (run tick : Bool)
  /-- EVT 0xx11: a counted tick, events disabled (R82). -/
  | tickOff (pinQ pin : Bool)
  /-- EVT 10011: a counted tick, pin low (R82). -/
  | tickLow
  /-- EVT 11111: a counted tick, pin high (R82). -/
  | tickHigh
  /-- EVT 0xx0x: events disabled, stopped (R83). -/
  | holdOffStopped (pinQ pin tick : Bool)
  /-- EVT 0xx10: events disabled, running, no tick (R83). -/
  | holdOffRunning (pinQ pin : Bool)
  /-- EVT 1000x: pin low, stopped (R83). -/
  | holdLowStopped (tick : Bool)
  /-- EVT 10010: pin low, running, no tick (R83). -/
  | holdLowRunning
  /-- EVT 1110x: pin high, stopped (R83). -/
  | holdHighStopped (tick : Bool)
  /-- EVT 11110: pin high, running, no tick (R83). -/
  | holdHighRunning
  /-- RST 1 (R123). -/
  | reset
  /-- ALWAYS: the edge detector's register follows the pin (R84). -/
  | track (pin : Bool)
  /-- INT: is this cycle an edge event? (R77). -/
  | edge (pin : Bool)
  /-- INT: push a Sample (R90). -/
  | add (v : Sample)
  /-- INT: has the ring been filled once? (R91). -/
  | isFull
  /-- INT: read one physical slot (R92). -/
  | elementAt (i : SlotIdx)
  /-- INT: the constant N (R93). -/
  | capacity
  /-- INT: copy all four slots at once (R99). -/
  | snapshot
  /-- INT: sort four values ascending (R100). -/
  | sort4 (a0 a1 a2 a3 : Sample)
  /-- INT: the upper median of four values (R102). -/
  | median4 (a0 a1 a2 a3 : Sample)
  /-- INT: the median, or the sentinel 0 (R104). -/
  | medianOrZero
  /-- INT: subtract the zero reference, clamped (R116). -/
  | rebase (m : Sample)
  /-- INT: one whole clock cycle on the four inputs (R122). -/
  | step (rst pin tick : Bool) (cmd : BitVec 3)
  deriving DecidableEq, Repr

/-- One line of a stimulus program (R73, R74). An omitted `pin` or `tick` repeats the previous line's. -/
inductive StimLine where
  /-- A command mnemonic, its signals, and how many identical cycles. -/
  | cycles (op : Instr) (rst : Bool) (pin tick : Option Bool) (count : Nat)
  /-- RESET: one reset cycle. -/
  | reset
  /-- PULSE k: a high phase of k counted ticks. -/
  | pulse (k : Nat)
  /-- IDLE n: n low cycles without a tick. -/
  | idle (n : Nat)
  deriving DecidableEq, Repr

end Sys2Proof
end

