-- ==== Sys2Proof/WellFormed.lean ====
section
/-! DEFINITION. Which operations a word on the block's inputs can stand for, and which stimulus lines are legal.
Operand ranges need no check: every operand is typed at exactly the width the spec gives it (R46, U3). -/

namespace Sys2Proof

/-- Input bits select the operations of formats CMD, EVT, RST and ALWAYS, and a stimulus word is one application of
STEP (R72, R121); every other INT operation is never selected by input bits, so no word stands for it (R69). -/
def Instr.wellFormed : Instr → Bool
  | .nop => true
  | .init => true
  | .stop => true
  | .getValue => true
  | .getMedian => true
  | .rsv5 => true
  | .rsv6 => true
  | .rsv7 => true
  | .rise _ _ => true
  | .fall _ _ => true
  | .tickOff _ _ => true
  | .tickLow => true
  | .tickHigh => true
  | .holdOffStopped _ _ _ => true
  | .holdOffRunning _ _ => true
  | .holdLowStopped _ => true
  | .holdLowRunning => true
  | .holdHighStopped _ => true
  | .holdHighRunning => true
  | .reset => true
  | .track _ => true
  | .edge _ => false
  | .add _ => false
  | .isFull => false
  | .elementAt _ => false
  | .capacity => false
  | .snapshot => false
  | .sort4 _ _ _ _ => false
  | .median4 _ _ _ _ => false
  | .medianOrZero => false
  | .rebase _ => false
  | .step _ _ _ _ => true

/-- The operations of format CMD, the mnemonics a stimulus line may name (R65, R73). -/
def Instr.isCommand : Instr → Bool
  | .nop => true
  | .init => true
  | .stop => true
  | .getValue => true
  | .getMedian => true
  | .rsv5 => true
  | .rsv6 => true
  | .rsv7 => true
  | .rise _ _ => false
  | .fall _ _ => false
  | .tickOff _ _ => false
  | .tickLow => false
  | .tickHigh => false
  | .holdOffStopped _ _ _ => false
  | .holdOffRunning _ _ => false
  | .holdLowStopped _ => false
  | .holdLowRunning => false
  | .holdHighStopped _ => false
  | .holdHighRunning => false
  | .reset => false
  | .track _ => false
  | .edge _ => false
  | .add _ => false
  | .isFull => false
  | .elementAt _ => false
  | .capacity => false
  | .snapshot => false
  | .sort4 _ _ _ _ => false
  | .median4 _ _ _ _ => false
  | .medianOrZero => false
  | .rebase _ => false
  | .step _ _ _ _ => false

/-- A stimulus line names a host command (R73). -/
def StimLine.wellFormed : StimLine → Bool
  | .cycles op _ _ _ _ => op.isCommand
  | .reset => true
  | .pulse _ => true
  | .idle _ => true

end Sys2Proof
end

