-- ==== Sys2Proof/Decode.lean ====
section
/-! DEFINITION. The decoders of the formats CMD (R65), EVT (R68), RST (R59), ALWAYS (R75) and STIM (R72), the encoder
written from the same tables, the stimulus assembler (R73, R74), and the host's reading of a table word. -/

namespace Sys2Proof

/-- Why a word stands for no operation. -/
inductive DecodeError where
  /-- A bit above the format's width is set. -/
  | tooWide
  /-- Format INT has no selecting bits (R69). -/
  | internalOnly
  /-- `rst_i = 0` selects no operation of format RST. -/
  | resetInactive
  deriving DecidableEq, Repr

/-- The width of each format (R64, R72). TRACK is given the event vector, of which it reads bit 2 alone (R75). -/
def Format.width : Format → Nat
  | .cmd => 3
  | .evt => 5
  | .rst => 1
  | .always => 5
  | .stim => 6
  | .int => 0

/-- The command codes (R65, R66). -/
def decodeCmd (w : BitVec 3) : Instr :=
  match w[2], w[1], w[0] with
  | false, false, false => .nop
  | false, false, true => .init
  | false, true, false => .stop
  | false, true, true => .getValue
  | true, false, false => .getMedian
  | true, false, true => .rsv5
  | true, true, false => .rsv6
  | true, true, true => .rsv7

/-- The event vector irq_en, pin_q, pin, run, tick from bit 4 down to bit 0 (R64). -/
def eventWord (irqEn pinQ pin run tick : Bool) : BitVec 5 :=
  BitVec.ofBool irqEn ++ BitVec.ofBool pinQ ++ BitVec.ofBool pin ++ BitVec.ofBool run ++ BitVec.ofBool tick

/-- The eleven event patterns, one arm each (R68). -/
def decodeEvent (v : BitVec 5) : Instr :=
  match v[4], v[3], v[2], v[1], v[0] with
  | true, false, true, run, tick => .rise run tick
  | true, true, false, run, tick => .fall run tick
  | false, pinQ, pin, true, true => .tickOff pinQ pin
  | true, false, false, true, true => .tickLow
  | true, true, true, true, true => .tickHigh
  | false, pinQ, pin, false, tick => .holdOffStopped pinQ pin tick
  | false, pinQ, pin, true, false => .holdOffRunning pinQ pin
  | true, false, false, false, tick => .holdLowStopped tick
  | true, false, false, true, false => .holdLowRunning
  | true, true, true, false, tick => .holdHighStopped tick
  | true, true, true, true, false => .holdHighRunning

/-- The stimulus word rst_i, pin_i, tick_i, cmd_i from bit 5 down (R72). -/
def stimWord (rst pin tick : Bool) (cmd : BitVec 3) : StimWord :=
  BitVec.ofBool rst ++ BitVec.ofBool pin ++ BitVec.ofBool tick ++ cmd

/-- One stimulus word is one application of STEP (R72, R121). -/
def decodeStim (w : StimWord) : Instr :=
  .step w[5] w[4] w[3] (w.extractLsb' 0 3)

/-- The decoder: total on every format and byte, a word that selects nothing rejected by name. -/
def decode (f : Format) (b : BitVec 8) : Except DecodeError Instr :=
  match f with
  | .int => .error .internalOnly
  | .cmd => if b.toNat < 8 then .ok (decodeCmd (b.setWidth 3)) else .error .tooWide
  | .evt => if b.toNat < 32 then .ok (decodeEvent (b.setWidth 5)) else .error .tooWide
  | .always => if b.toNat < 32 then .ok (.track b[2]) else .error .tooWide
  | .stim => if b.toNat < 64 then .ok (decodeStim (b.setWidth 6)) else .error .tooWide
  | .rst =>
    if b.toNat < 2 then (if b[0] then .ok .reset else .error .resetInactive) else .error .tooWide

/-- A command code as a word of format CMD (R65). -/
def cmdCode (w : BitVec 3) : Option (Format × BitVec 8) := some (.cmd, w.setWidth 8)

/-- An event vector as a word of format EVT (R64). -/
def eventCode (irqEn pinQ pin run tick : Bool) : Option (Format × BitVec 8) :=
  some (.evt, (eventWord irqEn pinQ pin run tick).setWidth 8)

/-- The encoder, from the same tables (R65, R68, R72); `none` for an operation no word stands for (R69). -/
def encode : Instr → Option (Format × BitVec 8)
  | .nop => cmdCode 0b000
  | .init => cmdCode 0b001
  | .stop => cmdCode 0b010
  | .getValue => cmdCode 0b011
  | .getMedian => cmdCode 0b100
  | .rsv5 => cmdCode 0b101
  | .rsv6 => cmdCode 0b110
  | .rsv7 => cmdCode 0b111
  | .rise run tick => eventCode true false true run tick
  | .fall run tick => eventCode true true false run tick
  | .tickOff pinQ pin => eventCode false pinQ pin true true
  | .tickLow => eventCode true false false true true
  | .tickHigh => eventCode true true true true true
  | .holdOffStopped pinQ pin tick => eventCode false pinQ pin false tick
  | .holdOffRunning pinQ pin => eventCode false pinQ pin true false
  | .holdLowStopped tick => eventCode true false false false tick
  | .holdLowRunning => eventCode true false false true false
  | .holdHighStopped tick => eventCode true true true false tick
  | .holdHighRunning => eventCode true true true true false
  | .reset => some (.rst, 1)
  | .track pin => some (.always, (eventWord false false pin false false).setWidth 8)
  | .edge _ => none
  | .add _ => none
  | .isFull => none
  | .elementAt _ => none
  | .capacity => none
  | .snapshot => none
  | .sort4 _ _ _ _ => none
  | .median4 _ _ _ _ => none
  | .medianOrZero => none
  | .rebase _ => none
  | .step rst pin tick cmd => some (.stim, (stimWord rst pin tick cmd).setWidth 8)

/-- The command code of a stimulus line's mnemonic; an operation that is no command gives none (R65, R73). -/
def commandCode (i : Instr) : Option (BitVec 3) :=
  match encode i with
  | some (.cmd, b) => some (b.setWidth 3)
  | some (.evt, _) => none
  | some (.rst, _) => none
  | some (.always, _) => none
  | some (.stim, _) => none
  | some (.int, _) => none
  | none => none

/-- The words of one stimulus line after a line that left `pin` and `tick`, with the levels it leaves in turn
(R73, R74); `none` where the line names no command. -/
def assembleLine (pin tick : Bool) : StimLine → Option (List StimWord × Bool × Bool)
  | .cycles op rst p t count =>
    (commandCode op).map fun c =>
      (List.replicate count (stimWord rst (p.getD pin) (t.getD tick) c), p.getD pin, t.getD tick)
  | .reset => some ([stimWord true false false 0], false, false)
  | .pulse k =>
    some (List.replicate (k + 1) (stimWord false true true 0) ++ List.replicate 2 (stimWord false false true 0),
      false, true)
  | .idle n => some (List.replicate n (stimWord false false false 0), false, false)

/-- A stimulus program's words, the levels before its first line being `pin` and `tick` (R73). -/
def assembleFrom (pin tick : Bool) : List StimLine → Option (List StimWord)
  | [] => some []
  | l :: ls =>
    match assembleLine pin tick l with
    | none => none
    | some (ws, pin', tick') => (assembleFrom pin' tick' ls).map (ws ++ ·)

/-- A stimulus program's words: omitted levels are 0 on the first line (R73). -/
def assemble (ls : List StimLine) : Option (List StimWord) := assembleFrom false false ls

/-- The format of a table word. The table's words are shorter than a byte: an exact width names its format; a row
given in whole bytes does not say its format, and is read as CMD below 8 and as EVT from 8 to 31, the reading under
which every mnemonic but RESET has a row read as the table has it (DESIGN CHOICE, log entry 9). -/
def tableFormat (nbits w : Nat) : Option Format :=
  if nbits = 1 then some .rst
  else if nbits = 3 then some .cmd
  else if nbits = 5 then some .evt
  else if nbits = 6 then some .stim
  else if nbits = 8 then (if w < 8 then some .cmd else if w < 32 then some .evt else none)
  else none

/-- The operation the decoder reads from a word of the opcode table. -/
def decodeTableWord (nbits w : Nat) : Option Instr :=
  match tableFormat nbits w with
  | none => none
  | some f =>
    if w < 256 then
      match decode f (BitVec.ofNat 8 w) with
      | .ok i => some i
      | .error _ => none
    else none

end Sys2Proof
end

