-- ==== Sys2Proof/Machine/Operands.lean ====
section
/-! DEFINITION. The operands of the operations: the event vector (R64), the slot reads (R92, R99), the sorted values
(R100), the median (R102) and the re-based value (R116). -/

namespace Sys2Proof.Machine

/-- The Sample stored at address `a`, if the memory lists one. -/
def Memory.read : Memory → Nat → Option Sample
  | [], _ => none
  | (b, w) :: m, a => if a = b then some w else Memory.read m a

/-- MemRead(i, 1), the value slot `i` holds (R43); a slot not written since reset holds its unspecified reset value
(R28; log entry 2). -/
def State.slot (s : State) (i : SlotIdx) : Sample :=
  (Memory.read s.slots i.toNat).getD (Config.slotReset s.draw i)

/-- ISFULL (R91). -/
def isFull (s : State) : Bool := s.full

/-- ELEMENTAT (R92): physical position, not age. -/
def elementAt (s : State) (i : SlotIdx) : Sample := s.slot i

/-- The four values SNAPSHOT obtains, in storage order, all from one state (R99, R50). -/
def snapshotOf (s : State) : Vector Sample 4 :=
  #v[elementAt s 0#2, elementAt s 1#2, elementAt s 2#2, elementAt s 3#2]

/-- The smaller of two values, compared as unsigned integers (R13). -/
def lower (x y : Sample) : Sample := if x.toNat ≤ y.toNat then x else y

/-- The larger of two values, compared as unsigned integers (R13). -/
def upper (x y : Sample) : Sample := if x.toNat ≤ y.toNat then y else x

/-- SORT4: the four values ascending (R100), by five compare-exchanges (R101 shows them; only the result of R100 is
normative). -/
def sort4 (a0 a1 a2 a3 : Sample) : Vector Sample 4 :=
  let v0 := lower a0 a1
  let v1 := upper a0 a1
  let v2 := lower a2 a3
  let v3 := upper a2 a3
  let w0 := lower v0 v2
  let w2 := upper v0 v2
  let w1 := lower v1 v3
  let w3 := upper v1 v3
  #v[w0, lower w1 w2, upper w1 w2, w3]

/-- MEDIAN4: the element at index N/2 = 2 of the sort, the upper median (R102). -/
def median4 (a0 a1 a2 a3 : Sample) : Sample := (sort4 a0 a1 a2 a3)[2]

/-- The value of MEDIANORZERO: the sentinel 0 until the ring has been filled once (R104). -/
def medianOrZero (s : State) : Sample :=
  if isFull s then
    median4 (snapshotOf s)[0] (snapshotOf s)[1] (snapshotOf s)[2] (snapshotOf s)[3]
  else 0#8

/-- REBASE for a given zero reference: clamped at 0, no borrow (R116). -/
def rebaseBy (zr m : Sample) : Sample := if m.toNat < zr.toNat then 0#8 else m - zr

/-- REBASE with the configuration's ZERO_REFERENCE (R116, R9). -/
def rebase (m : Sample) : Sample := rebaseBy Config.zeroReference m

/-- The event vector of a cycle, assembled from the pre-state and the inputs (R64). -/
def eventVector (s : State) (pin tick : Bool) : BitVec 5 :=
  eventWord s.irqEn s.pinQ pin s.run tick

end Sys2Proof.Machine
end

