-- ==== Sys2Proof/Machine/Ops.lean ====
section
/-! DEFINITION. The writes of each operation. As in the spec's notation (R14) an operation reads the pre-state `s`
and the cycle's inputs and writes the post-state `s'`; a field it does not write keeps its value. The block takes no
exception and returns from none (R131, R137, R138): the service of an edge event is `writeRise` or `writeFall`. -/

namespace Sys2Proof.Machine

/-- Store `v` at address `a`, keeping the cells in rising order. -/
def Memory.write : Memory → Nat → Sample → Memory
  | [], a, v => [(a, v)]
  | (b, w) :: m, a, v =>
    if a < b then (a, v) :: (b, w) :: m
    else if a = b then (a, v) :: m
    else (b, w) :: Memory.write m a v

/-- The cells rise strictly from address `lo` on and none lies outside the four slots (R42). -/
def Memory.risingFrom : Nat → Memory → Bool
  | _, [] => true
  | lo, (a, _) :: m => decide (lo ≤ a) && decide (a < 4) && Memory.risingFrom (a + 1) m

/-- The canonical form of the ring storage (log entry 11). -/
def Memory.wf (m : Memory) : Bool := Memory.risingFrom 0 m

/-- Output `rdata_o` of a cycle, a function of its pre-state (R63). -/
def State.rdataO (s : State) : Sample := s.result

/-- Output `rvalid_o` of a cycle, a function of its pre-state (R63). -/
def State.rvalidO (s : State) : Bool := s.rvalid

/-- RISE: zero and start the accumulator (R79). -/
def writeRise (s' : State) : State := { s' with cnt := 0#8, run := true }

/-- ADD: store at `widx`, advance it modulo 4, set `full` when slot 3 is written (R90). -/
def writeAdd (v : Sample) (s s' : State) : State :=
  { s' with
    slots := Memory.write s'.slots s.widx.toNat v
    widx := s.widx + 1#2
    full := fullAfterAdd s.widx s'.full }

/-- FALL: stop the accumulator, hold its count and push it (R80). -/
def writeFall (s s' : State) : State := writeAdd s.cnt s { s' with run := false }

/-- TICK: count one tick modulo 256 (R82). -/
def writeTick (s s' : State) : State := { s' with cnt := s.cnt + 1#8 }

/-- HOLD: the capture machine writes nothing (R83). -/
def writeHold (s' : State) : State := s'

/-- TRACK: the edge detector's register follows the pin (R84). -/
def writeTrack (pin : Bool) (s' : State) : State := { s' with pinQ := pin }

/-- SNAPSHOT: all four slots of one pre-state into `snap` (R99). -/
def writeSnapshot (s s' : State) : State := { s' with snap := snapshotOf s }

/-- The write of MEDIANORZERO: the snapshot, only when the ring has been filled (R104, R31). -/
def writeMedianOrZero (s s' : State) : State := if isFull s then writeSnapshot s s' else s'

/-- A read command's answer: `result` and `rvalid` (R33, R120). -/
def writeResult (v : Sample) (s' : State) : State := { s' with result := v, rvalid := true }

/-- NOP: no read command this cycle (R110). -/
def writeNop (s' : State) : State := { s' with rvalid := false }

/-- INIT: enable events, stop and zero the accumulator; the ring is not touched (R111, R113). -/
def writeInit (s s' : State) : State :=
  { s' with
    irqEn := true
    run := false
    cnt := 0#8
    inited := true
    rvalid := false
    reinit := reinitAfterInit s.inited s'.reinit }

/-- STOP: disable events and halt the accumulator; its count and the ring are held (R114). -/
def writeStop (s' : State) : State := { s' with irqEn := false, run := false, rvalid := false }

/-- GETVALUE: the re-based median (R117). -/
def writeGetValue (s s' : State) : State :=
  writeResult (rebase (medianOrZero s)) (writeMedianOrZero s s')

/-- GETMEDIAN: the raw median (R105). -/
def writeGetMedian (s s' : State) : State :=
  writeResult (medianOrZero s) (writeMedianOrZero s s')

/-- RESET: the state of R36, the unspecified contents drawn afresh (R123). The scheduled inputs and the cycle count
are the outside world's and stay (log entries 4 and 5). -/
def writeReset (s : State) : State :=
  { State.reset with
    snap := Config.snapReset (s.draw + 1)
    draw := s.draw + 1
    stim := s.stim
    cycle := s.cycle }

/-- The value an internal operation executed on its own hands back (R69; log entry 6). -/
def handBack (v : IntOut) (s : State) : State := { s with intOut := v }

/-- The stimulus word of the coming cycle: the oldest scheduled one, else a free input (R12; log entry 5). -/
def fetchWord (s : State) : StimWord :=
  match s.stim with
  | [] => Config.freeInput s.cycle
  | w :: _ => w

/-- The state in which a cycle's operation is executed: its stimulus word taken and the cycle counted
(log entry 5). -/
def takeWord (s : State) : State := { s with stim := s.stim.tail, cycle := s.cycle + 1 }

/-- Schedule the word of format `f` so that the next cycle selects it: a command in a cycle without an event or a
tick, an event vector with the three register bits it is assembled from and NOP, a reset, or a whole stimulus word
(log entry 10). -/
def placeWord (f : Format) (b : BitVec 8) (s : State) : State :=
  match f with
  | .cmd => { s with stim := stimWord false s.pinQ false (b.setWidth 3) :: s.stim }
  | .evt =>
    { s with irqEn := b[4], pinQ := b[3], run := b[1], stim := stimWord false b[2] b[0] 0 :: s.stim }
  | .rst => { s with stim := stimWord b[0] s.pinQ false 0 :: s.stim }
  | .always => { s with stim := stimWord false b[2] false 0 :: s.stim }
  | .stim => { s with stim := b.setWidth 6 :: s.stim }
  | .int => s

end Sys2Proof.Machine
end

