-- ==== Sys2Proof/Machine/Api.lean ====
section
/-! DEFINITION. The meanings of the Decoder API's commands: NOP, INIT, STOP, REBASE, GETVALUE and the reserved codes
(43_decoder_api.md). -/

namespace Sys2Proof.Machine

/-- NOP (R110). -/
def execNop (s : State) : Host.Outcome State Fault Refusal := .next (writeNop s)

/-- INIT (R111), with the decided behaviour of a second INIT (R113; log entry 7). -/
def execInit (s : State) : Host.Outcome State Fault Refusal := .next (writeInit s s)

/-- STOP (R114). -/
def execStop (s : State) : Host.Outcome State Fault Refusal := .next (writeStop s)

/-- REBASE (R116): hands back the re-based value; writes no register. -/
def execRebase (m : Sample) (s : State) : Host.Outcome State Fault Refusal :=
  .next (handBack (.sample (rebase m)) s)

/-- GETVALUE (R117). -/
def execGetValue (s : State) : Host.Outcome State Fault Refusal := .next (writeGetValue s s)

/-- Reserved code 101: as NOP (R119). -/
def execRsv5 (s : State) : Host.Outcome State Fault Refusal := .next (writeNop s)

/-- Reserved code 110: as NOP (R119). -/
def execRsv6 (s : State) : Host.Outcome State Fault Refusal := .next (writeNop s)

/-- Reserved code 111: as NOP (R119). -/
def execRsv7 (s : State) : Host.Outcome State Fault Refusal := .next (writeNop s)

end Sys2Proof.Machine
end

