-- ==== Sys2Proof/Machine/Capture.lean ====
section
/-! DEFINITION. The meanings of the capture machine's operations: EDGE, RISE, FALL, TICK, HOLD, TRACK
(40_capture.md). Each is the operation alone, reading and writing one state; a whole cycle is STEP. The bits of the
event vector that selected an operation are not read again: its action does not depend on them (R78). -/

namespace Sys2Proof.Machine

/-- EDGE (R77): hands back whether the cycle is an edge event; writes no register. -/
def execEdge (pin : Bool) (s : State) : Host.Outcome State Fault Refusal :=
  .next (handBack (.bit (edgeBit s.irqEn s.pinQ pin)) s)

/-- RISE (R79, R81). -/
def execRise (_run _tick : Bool) (s : State) : Host.Outcome State Fault Refusal :=
  .next (writeRise s)

/-- FALL (R80, R81). -/
def execFall (_run _tick : Bool) (s : State) : Host.Outcome State Fault Refusal :=
  .next (writeFall s s)

/-- TICK, row 0xx11 (R82). -/
def execTickOff (_pinQ _pin : Bool) (s : State) : Host.Outcome State Fault Refusal :=
  .next (writeTick s s)

/-- TICK, row 10011 (R82). -/
def execTickLow (s : State) : Host.Outcome State Fault Refusal := .next (writeTick s s)

/-- TICK, row 11111 (R82). -/
def execTickHigh (s : State) : Host.Outcome State Fault Refusal := .next (writeTick s s)

/-- HOLD, row 0xx0x (R83). -/
def execHoldOffStopped (_pinQ _pin _tick : Bool) (s : State) : Host.Outcome State Fault Refusal :=
  .next (writeHold s)

/-- HOLD, row 0xx10 (R83). -/
def execHoldOffRunning (_pinQ _pin : Bool) (s : State) : Host.Outcome State Fault Refusal :=
  .next (writeHold s)

/-- HOLD, row 1000x (R83). -/
def execHoldLowStopped (_tick : Bool) (s : State) : Host.Outcome State Fault Refusal :=
  .next (writeHold s)

/-- HOLD, row 10010 (R83). -/
def execHoldLowRunning (s : State) : Host.Outcome State Fault Refusal := .next (writeHold s)

/-- HOLD, row 1110x (R83). -/
def execHoldHighStopped (_tick : Bool) (s : State) : Host.Outcome State Fault Refusal :=
  .next (writeHold s)

/-- HOLD, row 11110 (R83). -/
def execHoldHighRunning (s : State) : Host.Outcome State Fault Refusal := .next (writeHold s)

/-- TRACK (R84). -/
def execTrack (pin : Bool) (s : State) : Host.Outcome State Fault Refusal :=
  .next (writeTrack pin s)

end Sys2Proof.Machine
end

