-- ==== Sys2Proof/Machine/Cycle.lean ====
section
/-! DEFINITION. One clock cycle (44_cycle_step.md): RESET and STEP. A non-reset cycle performs the capture operation
its event vector selects, then TRACK, then the command, every one reading the pre-state, a later write to a field
overriding an earlier one (R122). -/

namespace Sys2Proof.Machine

/-- The writes of an operation that a cycle's decoders select: a capture operation, TRACK or a command. An operation
of format INT or RST is selected by neither decoder (R69) and writes nothing here. -/
def writeSelected (i : Instr) (s s' : State) : State :=
  match i with
  | .nop => writeNop s'
  | .init => writeInit s s'
  | .stop => writeStop s'
  | .getValue => writeGetValue s s'
  | .getMedian => writeGetMedian s s'
  | .rsv5 => writeNop s'
  | .rsv6 => writeNop s'
  | .rsv7 => writeNop s'
  | .rise _ _ => writeRise s'
  | .fall _ _ => writeFall s s'
  | .tickOff _ _ => writeTick s s'
  | .tickLow => writeTick s s'
  | .tickHigh => writeTick s s'
  | .holdOffStopped _ _ _ => writeHold s'
  | .holdOffRunning _ _ => writeHold s'
  | .holdLowStopped _ => writeHold s'
  | .holdLowRunning => writeHold s'
  | .holdHighStopped _ => writeHold s'
  | .holdHighRunning => writeHold s'
  | .reset => s'
  | .track pin => writeTrack pin s'
  | .edge _ => s'
  | .add _ => s'
  | .isFull => s'
  | .elementAt _ => s'
  | .capacity => s'
  | .snapshot => s'
  | .sort4 _ _ _ _ => s'
  | .median4 _ _ _ _ => s'
  | .medianOrZero => s'
  | .rebase _ => s'
  | .step _ _ _ _ => s'

/-- Phase A of a cycle: the selected capture operation, and TRACK (R76, R122). -/
def writeCapture (pin tick : Bool) (s s' : State) : State :=
  writeSelected (.track pin) s (writeSelected (decodeEvent (eventVector s pin tick)) s s')

/-- Phase B of a cycle: the host's command (R109, R122). -/
def writeCommand (cmd : BitVec 3) (s s' : State) : State := writeSelected (decodeCmd cmd) s s'

/-- A non-reset cycle, both phases from the one pre-state (R122). -/
def writeCycle (pin tick : Bool) (cmd : BitVec 3) (s : State) : State :=
  writeCommand cmd s (writeCapture pin tick s s)

/-- RESET (R123). -/
def execReset (s : State) : Host.Outcome State Fault Refusal := .next (writeReset s)

/-- STEP (R122): reset over everything, else both phases. -/
def execStep (rst pin tick : Bool) (cmd : BitVec 3) (s : State) : Host.Outcome State Fault Refusal :=
  .next (if rst then writeReset s else writeCycle pin tick cmd s)

end Sys2Proof.Machine
end

