-- ==== Sys2Proof/Machine/Median.lean ====
section
/-! DEFINITION. The meanings of the median filter's operations: SNAPSHOT, SORT4, MEDIAN4, MEDIANORZERO, GETMEDIAN
(42_median.md). -/

namespace Sys2Proof.Machine

/-- SNAPSHOT (R99): copies the four slots into `snap` and hands them back. -/
def execSnapshot (s : State) : Host.Outcome State Fault Refusal :=
  .next (handBack (.four (snapshotOf s)) (writeSnapshot s s))

/-- SORT4 (R100): hands back the sorted values; writes no register. -/
def execSort4 (a0 a1 a2 a3 : Sample) (s : State) : Host.Outcome State Fault Refusal :=
  .next (handBack (.four (sort4 a0 a1 a2 a3)) s)

/-- MEDIAN4 (R102): hands back the upper median; writes no register. -/
def execMedian4 (a0 a1 a2 a3 : Sample) (s : State) : Host.Outcome State Fault Refusal :=
  .next (handBack (.sample (median4 a0 a1 a2 a3)) s)

/-- MEDIANORZERO (R104): hands back the median or 0, and writes `snap` when the ring has been filled. -/
def execMedianOrZero (s : State) : Host.Outcome State Fault Refusal :=
  .next (handBack (.sample (medianOrZero s)) (writeMedianOrZero s s))

/-- GETMEDIAN (R105). -/
def execGetMedian (s : State) : Host.Outcome State Fault Refusal := .next (writeGetMedian s s)

end Sys2Proof.Machine
end

