-- ==== Sys2Proof/Machine/Ring.lean ====
section
/-! DEFINITION. The meanings of the ring buffer's operations: ADD, ISFULL, ELEMENTAT, CAPACITY (41_ringbuffer.md). -/

namespace Sys2Proof.Machine

/-- ADD (R90). -/
def execAdd (v : Sample) (s : State) : Host.Outcome State Fault Refusal := .next (writeAdd v s s)

/-- ISFULL (R91): hands back `full`; writes no register. -/
def execIsFull (s : State) : Host.Outcome State Fault Refusal :=
  .next (handBack (.bit (isFull s)) s)

/-- ELEMENTAT (R92): hands back slot `i`; writes no register (R48). -/
def execElementAt (i : SlotIdx) (s : State) : Host.Outcome State Fault Refusal :=
  .next (handBack (.sample (elementAt s i)) s)

/-- CAPACITY (R93): hands back N = 4; writes no register. -/
def execCapacity (s : State) : Host.Outcome State Fault Refusal :=
  .next (handBack (.count Config.capacity) s)

end Sys2Proof.Machine
end

