-- ==== Sys2Proof/Machine/Dispatch.lean ====
section
/-! DEFINITION. Each operation of the opcode table to its meaning. -/

namespace Sys2Proof.Machine

def exec (i : Instr) (s : State) : Host.Outcome State Fault Refusal :=
  match i with
  | .nop => Sys2Proof.Machine.execNop s
  | .init => Sys2Proof.Machine.execInit s
  | .stop => Sys2Proof.Machine.execStop s
  | .getValue => Sys2Proof.Machine.execGetValue s
  | .getMedian => Sys2Proof.Machine.execGetMedian s
  | .rsv5 => Sys2Proof.Machine.execRsv5 s
  | .rsv6 => Sys2Proof.Machine.execRsv6 s
  | .rsv7 => Sys2Proof.Machine.execRsv7 s
  | .rise run tick => Sys2Proof.Machine.execRise run tick s
  | .fall run tick => Sys2Proof.Machine.execFall run tick s
  | .tickOff pinQ pin => Sys2Proof.Machine.execTickOff pinQ pin s
  | .tickLow => Sys2Proof.Machine.execTickLow s
  | .tickHigh => Sys2Proof.Machine.execTickHigh s
  | .holdOffStopped pinQ pin tick => Sys2Proof.Machine.execHoldOffStopped pinQ pin tick s
  | .holdOffRunning pinQ pin => Sys2Proof.Machine.execHoldOffRunning pinQ pin s
  | .holdLowStopped tick => Sys2Proof.Machine.execHoldLowStopped tick s
  | .holdLowRunning => Sys2Proof.Machine.execHoldLowRunning s
  | .holdHighStopped tick => Sys2Proof.Machine.execHoldHighStopped tick s
  | .holdHighRunning => Sys2Proof.Machine.execHoldHighRunning s
  | .reset => Sys2Proof.Machine.execReset s
  | .track pin => Sys2Proof.Machine.execTrack pin s
  | .edge pin => Sys2Proof.Machine.execEdge pin s
  | .add v => Sys2Proof.Machine.execAdd v s
  | .isFull => Sys2Proof.Machine.execIsFull s
  | .elementAt idx => Sys2Proof.Machine.execElementAt idx s
  | .capacity => Sys2Proof.Machine.execCapacity s
  | .snapshot => Sys2Proof.Machine.execSnapshot s
  | .sort4 a0 a1 a2 a3 => Sys2Proof.Machine.execSort4 a0 a1 a2 a3 s
  | .median4 a0 a1 a2 a3 => Sys2Proof.Machine.execMedian4 a0 a1 a2 a3 s
  | .medianOrZero => Sys2Proof.Machine.execMedianOrZero s
  | .rebase m => Sys2Proof.Machine.execRebase m s
  | .step rst pin tick cmd => Sys2Proof.Machine.execStep rst pin tick cmd s

end Sys2Proof.Machine
end

