-- ==== Sys2Proof/Machine/Step.lean ====
section
/-! DEFINITION. One step of the machine is one clock cycle (R121): the cycle's stimulus word is taken, decoded to
STEP with its four inputs (R72), and executed. -/

namespace Sys2Proof.Machine

/-- One clock cycle (R121). -/
def step (s : State) : Host.Outcome State Fault Refusal :=
  exec (decodeStim (fetchWord s)) (takeWord s)

/-- `s` with the table word `w` scheduled for its next cycle (log entries 9 and 10). -/
def State.withFetchWord (s : State) (nbits w : Nat) : State :=
  match tableFormat nbits w with
  | none => s
  | some f => if w < 256 then placeWord f (BitVec.ofNat 8 w) s else s

end Sys2Proof.Machine
end

