-- ==== Sys2Proof/Laws/PerInstr.lean ====
section
/-! SUPPORT. Per operation: decoding what it encodes to gives it back. -/

namespace Sys2Proof.Laws.RoundTrip

/-- An operation that a word stands for is what its word decodes to. -/
def Statement (i : Instr) : Prop :=
  i.wellFormed = true → ∃ f b, encode i = some (f, b) ∧ decode f b = .ok i

theorem nop : Statement .nop := fun _ => by
  exact ⟨_, _, rfl, rfl⟩

theorem init : Statement .init := fun _ => by
  exact ⟨_, _, rfl, rfl⟩

theorem stop : Statement .stop := fun _ => by
  exact ⟨_, _, rfl, rfl⟩

theorem getValue : Statement .getValue := fun _ => by
  exact ⟨_, _, rfl, rfl⟩

theorem getMedian : Statement .getMedian := fun _ => by
  exact ⟨_, _, rfl, rfl⟩

theorem rsv5 : Statement .rsv5 := fun _ => by
  exact ⟨_, _, rfl, rfl⟩

theorem rsv6 : Statement .rsv6 := fun _ => by
  exact ⟨_, _, rfl, rfl⟩

theorem rsv7 : Statement .rsv7 := fun _ => by
  exact ⟨_, _, rfl, rfl⟩

theorem rise (r t : Bool) : Statement (.rise r t) := fun _ => by
  cases r <;> cases t <;> exact ⟨_, _, rfl, rfl⟩

theorem fall (r t : Bool) : Statement (.fall r t) := fun _ => by
  cases r <;> cases t <;> exact ⟨_, _, rfl, rfl⟩

theorem tickOff (q p : Bool) : Statement (.tickOff q p) := fun _ => by
  cases q <;> cases p <;> exact ⟨_, _, rfl, rfl⟩

theorem tickLow : Statement .tickLow := fun _ => by
  exact ⟨_, _, rfl, rfl⟩

theorem tickHigh : Statement .tickHigh := fun _ => by
  exact ⟨_, _, rfl, rfl⟩

theorem holdOffStopped (q p t : Bool) : Statement (.holdOffStopped q p t) := fun _ => by
  cases q <;> cases p <;> cases t <;> exact ⟨_, _, rfl, rfl⟩

theorem holdOffRunning (q p : Bool) : Statement (.holdOffRunning q p) := fun _ => by
  cases q <;> cases p <;> exact ⟨_, _, rfl, rfl⟩

theorem holdLowStopped (t : Bool) : Statement (.holdLowStopped t) := fun _ => by
  cases t <;> exact ⟨_, _, rfl, rfl⟩

theorem holdLowRunning : Statement .holdLowRunning := fun _ => by
  exact ⟨_, _, rfl, rfl⟩

theorem holdHighStopped (t : Bool) : Statement (.holdHighStopped t) := fun _ => by
  cases t <;> exact ⟨_, _, rfl, rfl⟩

theorem holdHighRunning : Statement .holdHighRunning := fun _ => by
  exact ⟨_, _, rfl, rfl⟩

theorem reset : Statement .reset := fun _ => by
  exact ⟨_, _, rfl, rfl⟩

theorem track (p : Bool) : Statement (.track p) := fun _ => by
  cases p <;> exact ⟨_, _, rfl, rfl⟩

theorem edge (p : Bool) : Statement (.edge p) := fun h => nomatch h

theorem add (v : Sample) : Statement (.add v) := fun h => nomatch h

theorem isFull : Statement .isFull := fun h => nomatch h

theorem elementAt (i : SlotIdx) : Statement (.elementAt i) := fun h => nomatch h

theorem capacity : Statement .capacity := fun h => nomatch h

theorem snapshot : Statement .snapshot := fun h => nomatch h

theorem sort4 (a b c d : Sample) : Statement (.sort4 a b c d) := fun h => nomatch h

theorem median4 (a b c d : Sample) : Statement (.median4 a b c d) := fun h => nomatch h

theorem medianOrZero : Statement .medianOrZero := fun h => nomatch h

theorem rebase (m : Sample) : Statement (.rebase m) := fun h => nomatch h

/-- Reading the four fields back from a packed stimulus word. -/
theorem decodeStim_stimWord (rst pin tick : Bool) (cmd : BitVec 3) :
    decodeStim (stimWord rst pin tick cmd) = .step rst pin tick cmd := by
  revert rst pin tick cmd
  decide

theorem stimWord_in_byte (w : StimWord) :
    (w.setWidth 8).toNat < 64 ∧ (w.setWidth 8).setWidth 6 = w := by
  revert w
  decide

theorem step (rst pin tick : Bool) (cmd : BitVec 3) : Statement (.step rst pin tick cmd) := fun _ =>
  ⟨.stim, _, rfl, by
    have h := stimWord_in_byte (stimWord rst pin tick cmd)
    rw [decode, if_pos h.1, h.2, decodeStim_stimWord]⟩

end Sys2Proof.Laws.RoundTrip
end

