-- ==== Sys2Proof/Safety.lean ====
section
/-! DEFINITION. The terms in which claims speak of runs: the inputs of a cycle, what a supported run is (R17), the
invariants of 10_state.md, agreement of two runs but for the unspecified reset contents (R38), and pulses (R86). -/

namespace Sys2Proof.Machine

/-- `rst_i` of a stimulus word (R72). -/
def rstIn (w : StimWord) : Bool := w[5]

/-- `pin_i` of a stimulus word (R72). -/
def pinIn (w : StimWord) : Bool := w[4]

/-- `tick_i` of a stimulus word (R72). -/
def tickIn (w : StimWord) : Bool := w[3]

/-- `cmd_i` of a stimulus word (R72). -/
def cmdIn (w : StimWord) : BitVec 3 := w.extractLsb' 0 3

/-- The run so far is one the source supports: at most one INIT since reset (R17). -/
abbrev State.supported (s : State) : Prop := s.reinit = false

/-- A pin level `pin` makes the coming cycle a RISE (R68). -/
def State.rises (s : State) (pin : Bool) : Bool := s.irqEn && !s.pinQ && pin

/-- A pin level `pin` makes the coming cycle a FALL (R68). -/
def State.falls (s : State) (pin : Bool) : Bool := s.irqEn && s.pinQ && !pin

/-- A running accumulator has events enabled and a high pin (R39). -/
abbrev RunningMeansHigh (s : State) : Prop := s.run = true → s.irqEn = true ∧ s.pinQ = true

/-- A stopped accumulator under a high pin with events enabled holds 0 (R166). -/
abbrev IdleHighHoldsZero (s : State) : Prop :=
  s.irqEn = true → s.run = false → s.pinQ = true → s.cnt = 0#8

/-- The slots written since reset: all four once full, else those below `widx` (R37, R38, R49). -/
abbrev RingShape (s : State) : Prop :=
  s.slots.map Prod.fst = if s.full then [0, 1, 2, 3] else List.range s.widx.toNat

/-- The index and the fill flag after `p` pushes since reset (R37). -/
abbrev RingCount (p : Nat) (s : State) : Prop :=
  s.widx.toNat = p % 4 ∧ (s.full = true ↔ 4 ≤ p)

/-- The ring after the pushes `h` since reset, most recent first: the `(j+1)`-th most recent stands in slot
`(p - 1 - j) mod 4` (R40). -/
abbrev HoldsHistory (h : List Sample) (s : State) : Prop :=
  RingCount h.length s ∧
    ∀ j, ∀ hj : j < h.length, j < 4 → s.slot (BitVec.ofNat 2 (h.length - 1 - j)) = h[j]

/-- The pushes since reset after one more cycle with the inputs `w`. -/
def historyAfter (h : List Sample) (s : State) (w : StimWord) : List Sample :=
  if rstIn w then [] else if s.falls (pinIn w) then s.cnt :: h else h

/-- Slot `i` has been written since reset (R49). -/
def State.written (s : State) (i : SlotIdx) : Bool := s.full || i.toNat < s.widx.toNat

/-- Two states that agree but for what a reset leaves unspecified: the slots not yet written, and `snap`, which no
hardware rule reads (R28, R31, R32). -/
structure SameButResetContents (s t : State) : Prop where
  irqEn : s.irqEn = t.irqEn
  run : s.run = t.run
  cnt : s.cnt = t.cnt
  pinQ : s.pinQ = t.pinQ
  widx : s.widx = t.widx
  full : s.full = t.full
  slot : ∀ i, s.written i = true → s.slot i = t.slot i
  result : s.result = t.result
  rvalid : s.rvalid = t.rvalid
  inited : s.inited = t.inited
  stim : s.stim = t.stim
  cycle : s.cycle = t.cycle

/-- A non-reset cycle with a high pin whose command is neither INIT nor STOP. -/
abbrev HighCycle (w : StimWord) : Prop :=
  rstIn w = false ∧ pinIn w = true ∧ cmdIn w ≠ 1#3 ∧ cmdIn w ≠ 2#3

/-- A non-reset cycle with a low pin whose command is neither INIT nor STOP. -/
abbrev LowCycle (w : StimWord) : Prop :=
  rstIn w = false ∧ pinIn w = false ∧ cmdIn w ≠ 1#3 ∧ cmdIn w ≠ 2#3

/-- The words of a pulse of `k` ticks: a high cycle, high cycles in which `k` ticks are offered, a low cycle, and any
number of further low cycles (R86). -/
def IsPulse (k : Nat) (ws : List StimWord) : Prop :=
  ∃ w0 ms w1 ls, ws = w0 :: (ms ++ w1 :: ls) ∧ HighCycle w0 ∧ (∀ m ∈ ms, HighCycle m) ∧
    LowCycle w1 ∧ (∀ l ∈ ls, LowCycle l) ∧ ms.countP tickIn = k

/-- The sorted multiset of four values: ascending, and a permutation of them (R100). -/
abbrev SortedFormOf (v : Vector Sample 4) (a0 a1 a2 a3 : Sample) : Prop :=
  v[0].toNat ≤ v[1].toNat ∧ v[1].toNat ≤ v[2].toNat ∧ v[2].toNat ≤ v[3].toNat ∧
    v.toList.Perm [a0, a1, a2, a3]

/-- The closed form of MEDIAN4 (R103). -/
def medianClosedForm (a0 a1 a2 a3 : Sample) : Nat :=
  max (min (max a0.toNat a1.toNat) (max a2.toNat a3.toNat)) (max (min a0.toNat a1.toNat) (min a2.toNat a3.toNat))

/-- The operations that write none of `slot[]`, `widx`, `full` (the "Written by" column of R18; R44). -/
def leavesRing : Instr → Bool
  | .nop => true
  | .init => true
  | .stop => true
  | .getValue => true
  | .getMedian => true
  | .rsv5 => true
  | .rsv6 => true
  | .rsv7 => true
  | .rise _ _ => true
  | .fall _ _ => false
  | .tickOff _ _ => true
  | .tickLow => true
  | .tickHigh => true
  | .holdOffStopped _ _ _ => true
  | .holdOffRunning _ _ => true
  | .holdLowStopped _ => true
  | .holdLowRunning => true
  | .holdHighStopped _ => true
  | .holdHighRunning => true
  | .reset => false
  | .track _ => true
  | .edge _ => true
  | .add _ => false
  | .isFull => true
  | .elementAt _ => true
  | .capacity => true
  | .snapshot => true
  | .sort4 _ _ _ _ => true
  | .median4 _ _ _ _ => true
  | .medianOrZero => true
  | .rebase _ => true
  | .step _ _ _ _ => false

/-- The state RESET leaves, written out from R36 but for the unspecified contents. -/
abbrev IsResetState (t : State) : Prop :=
  t.irqEn = false ∧ t.run = false ∧ t.cnt = 0#8 ∧ t.pinQ = false ∧ t.widx = 0#2 ∧ t.full = false ∧
    t.result = 0#8 ∧ t.rvalid = false ∧ t.inited = false

/-- The transition function of R122 for a non-reset cycle, written out from its pseudocode field by field, MEDIAN4
being `median4`. -/
def cycleByRule (pin tick : Bool) (cmd : BitVec 3) (s : State) : State :=
  let evt := s.irqEn && (pin != s.pinQ)
  let a :=
    if evt && pin then { s with cnt := 0#8, run := true }
    else if evt && !pin then
      { s with
        run := false
        slots := Memory.write s.slots s.widx.toNat s.cnt
        widx := BitVec.ofNat 2 ((s.widx.toNat + 1) % 4)
        full := if s.widx = 3#2 then true else s.full }
    else if s.run && tick then { s with cnt := BitVec.ofNat 8 ((s.cnt.toNat + 1) % 256) }
    else s
  let b := { a with pinQ := pin }
  let m :=
    if s.full then median4 (s.slot 0#2) (s.slot 1#2) (s.slot 2#2) (s.slot 3#2) else 0#8
  let snap := if s.full then #v[s.slot 0#2, s.slot 1#2, s.slot 2#2, s.slot 3#2] else s.snap
  if cmd = 1#3 then
    { b with irqEn := true, run := false, cnt := 0#8, inited := true, rvalid := false }
  else if cmd = 2#3 then { b with irqEn := false, run := false, rvalid := false }
  else if cmd = 3#3 then
    { b with snap := snap, result := BitVec.ofNat 8 (m.toNat - Config.zeroReference.toNat), rvalid := true }
  else if cmd = 4#3 then { b with snap := snap, result := m, rvalid := true }
  else { b with rvalid := false }

end Sys2Proof.Machine
end

