-- ==== Sys2Proof/Certificates/Slice0/Obligations.lean ====
section
/-! DEFINITION. The statements for the provers. `Sys2Proof.Machine.exec i s` is an operation alone;
`.step rst pin tick cmd` is a whole clock cycle. -/

open Sys2Proof Sys2Proof.Machine

/-! ### Encoding -/

/-- R65: each command code selects its command. -/
def Obligations.CommandCodesSelectTheirCommand : Prop :=
  decode .cmd 0b000 = .ok .nop ∧ decode .cmd 0b001 = .ok .init ∧ decode .cmd 0b010 = .ok .stop ∧
    decode .cmd 0b011 = .ok .getValue ∧ decode .cmd 0b100 = .ok .getMedian ∧
    decode .cmd 0b101 = .ok .rsv5 ∧ decode .cmd 0b110 = .ok .rsv6 ∧ decode .cmd 0b111 = .ok .rsv7

/-- R68: the eleven patterns, that they cover all 32 vectors, and "in words" what each selects. -/
def Obligations.EventPatternsSelectTheirOperation : Prop :=
  (∀ x y z : Bool,
    decodeEvent (eventWord true false true x y) = .rise x y ∧
    decodeEvent (eventWord true true false x y) = .fall x y ∧
    decodeEvent (eventWord false x y true true) = .tickOff x y ∧
    decodeEvent (eventWord true false false true true) = .tickLow ∧
    decodeEvent (eventWord true true true true true) = .tickHigh ∧
    decodeEvent (eventWord false x y false z) = .holdOffStopped x y z ∧
    decodeEvent (eventWord false x y true false) = .holdOffRunning x y ∧
    decodeEvent (eventWord true false false false x) = .holdLowStopped x ∧
    decodeEvent (eventWord true false false true false) = .holdLowRunning ∧
    decodeEvent (eventWord true true true false x) = .holdHighStopped x ∧
    decodeEvent (eventWord true true true true false) = .holdHighRunning) ∧
  (∀ v : BitVec 5, ∃ irqEn pinQ pin run tick, v = eventWord irqEn pinQ pin run tick) ∧
  ∀ irqEn pinQ pin run tick : Bool,
    ((irqEn = true ∧ pin ≠ pinQ ∧ pin = true) ↔
      decodeEvent (eventWord irqEn pinQ pin run tick) = .rise run tick) ∧
    ((irqEn = true ∧ pin ≠ pinQ ∧ pin = false) ↔
      decodeEvent (eventWord irqEn pinQ pin run tick) = .fall run tick) ∧
    ((¬(irqEn = true ∧ pin ≠ pinQ) ∧ run = true ∧ tick = true) ↔
      decodeEvent (eventWord irqEn pinQ pin run tick) ∈ [.tickOff pinQ pin, .tickLow, .tickHigh]) ∧
    ((¬(irqEn = true ∧ pin ≠ pinQ) ∧ ¬(run = true ∧ tick = true)) ↔
      decodeEvent (eventWord irqEn pinQ pin run tick) ∈ [.holdOffStopped pinQ pin tick, .holdOffRunning pinQ pin,
        .holdLowStopped tick, .holdLowRunning, .holdHighStopped tick, .holdHighRunning])

/-- Decoding an encoded operation gives it back, for every operation a word stands for and every operand. -/
def Obligations.EncodeThenDecodeGivesTheOperation : Prop :=
  ∀ i : Instr, i.wellFormed = true → ∃ f b, encode i = some (f, b) ∧ decode f b = .ok i

/-- Each word has one meaning: encoding what was decoded gives the word back. Format ALWAYS is left out, as TRACK
reads one bit of its five and the others are free (R75). -/
def Obligations.DecodeThenEncodeGivesTheWord : Prop :=
  ∀ (f : Format) (b : BitVec 8) (i : Instr), f ≠ .always → decode f b = .ok i → encode i = some (f, b)

/-- Whatever is decoded is an operation that a word stands for: no word selects an internal operation other than
STEP (R69). -/
def Obligations.DecodedOperationsAreWellFormed : Prop :=
  ∀ (f : Format) (b : BitVec 8) (i : Instr), decode f b = .ok i → i.wellFormed = true

/-- What the decoder rejects, by name: exactly format INT, words wider than their format, and `rst_i = 0`. -/
def Obligations.DecoderRejectsByName : Prop :=
  ∀ (f : Format) (b : BitVec 8) (e : DecodeError), decode f b = .error e ↔
    (f = .int ∧ e = .internalOnly) ∨ (f ≠ .int ∧ 2 ^ f.width ≤ b.toNat ∧ e = .tooWide) ∨
      (f = .rst ∧ b = 0#8 ∧ e = .resetInactive)

/-- R66, R119: the reserved codes are decoded, change nothing but `rvalid` and are NOP in effect, alone and in a
cycle; all 32 event vectors are decoded. -/
def Obligations.ReservedCodesActAsNop : Prop :=
  (decode .cmd 0b101 = .ok .rsv5 ∧ decode .cmd 0b110 = .ok .rsv6 ∧ decode .cmd 0b111 = .ok .rsv7) ∧
  (∀ s : State,
    exec .rsv5 s = .next { s with rvalid := false } ∧ exec .rsv6 s = .next { s with rvalid := false } ∧
    exec .rsv7 s = .next { s with rvalid := false } ∧ exec .rsv5 s = exec .nop s ∧
    exec .rsv6 s = exec .nop s ∧ exec .rsv7 s = exec .nop s) ∧
  (∀ (s : State) (pin tick : Bool) (cmd : BitVec 3), (cmd = 5#3 ∨ cmd = 6#3 ∨ cmd = 7#3) →
    exec (.step false pin tick cmd) s = exec (.step false pin tick 0#3) s) ∧
  ∀ b : BitVec 8, b.toNat < 32 → ∃ i, decode .evt b = .ok i

/-! ### The capture machine -/

/-- R77: EDGE hands back the predicate and writes no register; disabled or unchanged is no event, every change while
enabled is one. -/
def Obligations.EdgeIsAnEnabledChange : Prop :=
  ∀ (s : State) (pin : Bool),
    exec (.edge pin) s = .next { s with intOut := .bit (edgeBit s.irqEn s.pinQ pin) } ∧
    (edgeBit s.irqEn s.pinQ pin = true ↔ s.irqEn = true ∧ pin ≠ s.pinQ) ∧
    (s.irqEn = false → edgeBit s.irqEn s.pinQ pin = false) ∧
    (pin = s.pinQ → edgeBit s.irqEn s.pinQ pin = false) ∧
    (s.irqEn = true → edgeBit s.irqEn s.pinQ (!s.pinQ) = true)

/-- R78: on an edge event the pin level alone chooses the action. -/
def Obligations.PinLevelAloneChoosesTheAction : Prop :=
  ∀ (s : State) (pin tick : Bool), edgeBit s.irqEn s.pinQ pin = true →
    (pin = true → decodeEvent (eventVector s pin tick) = .rise s.run tick ∧ s.pinQ = false) ∧
    (pin = false → decodeEvent (eventVector s pin tick) = .fall s.run tick ∧ s.pinQ = true)

/-- R79: RISE alone, from `Idle` and from `Measuring`, and in a cycle: the tick of the cycle is not counted, nothing
is pushed, INIT and STOP override `run`. -/
def Obligations.RiseZeroesAndStarts : Prop :=
  (∀ (s : State) (run tick : Bool), exec (.rise run tick) s = .next { s with cnt := 0#8, run := true }) ∧
  ∀ (s : State) (tick : Bool) (cmd : BitVec 3), s.rises true = true →
    ∃ t, exec (.step false true tick cmd) s = .next t ∧ t.cnt = 0#8 ∧
      (t.run = true ↔ cmd ≠ 1#3 ∧ cmd ≠ 2#3) ∧ t.pinQ = true ∧ t.slots = s.slots ∧ t.widx = s.widx ∧
      t.full = s.full

/-- R80: FALL alone, from `Measuring` and from `Idle`, and in a cycle: the pre-state's count is pushed whatever the
tick and the command are; the count is held unless the command is INIT. -/
def Obligations.FallStopsAndPushesTheCount : Prop :=
  (∀ (s : State) (run tick : Bool), exec (.fall run tick) s = .next { s with
      run := false
      slots := Memory.write s.slots s.widx.toNat s.cnt
      widx := s.widx + 1#2
      full := s.full || decide (s.widx = 3#2) }) ∧
  ∀ (s : State) (tick : Bool) (cmd : BitVec 3), s.falls false = true →
    ∃ t, exec (.step false false tick cmd) s = .next t ∧ t.run = false ∧ t.slot s.widx = s.cnt ∧
      (∀ a, a ≠ s.widx → t.slot a = s.slot a) ∧ t.widx = s.widx + 1#2 ∧
      (t.full = true ↔ s.full = true ∨ s.widx = 3#2) ∧ t.cnt = (if cmd = 1#3 then 0#8 else s.cnt) ∧ t.pinQ = false

/-- R82: TICK alone, each of its three rows, wrapping at 255; in a cycle without an event it is counted exactly when
the accumulator runs, and INIT overrides it with 0. -/
def Obligations.TickCountsModulo256 : Prop :=
  (∀ (s : State) (pinQ pin : Bool),
    exec (.tickOff pinQ pin) s = .next { s with cnt := BitVec.ofNat 8 ((s.cnt.toNat + 1) % 256) } ∧
    exec .tickLow s = .next { s with cnt := BitVec.ofNat 8 ((s.cnt.toNat + 1) % 256) } ∧
    exec .tickHigh s = .next { s with cnt := BitVec.ofNat 8 ((s.cnt.toNat + 1) % 256) } ∧
    (s.cnt = 255#8 → exec .tickHigh s = .next { s with cnt := 0#8 })) ∧
  ∀ (s : State) (pin : Bool) (cmd : BitVec 3), edgeBit s.irqEn s.pinQ pin = false →
    ∃ t, exec (.step false pin true cmd) s = .next t ∧
      t.cnt = (if cmd = 1#3 then 0#8 else if s.run then s.cnt + 1#8 else s.cnt)

/-- R83: HOLD alone, each of its six rows, writes nothing; in a cycle it keeps the count, the run bit and the ring
unless a command writes them. -/
def Obligations.HoldWritesNothing : Prop :=
  (∀ (s : State) (pinQ pin tick : Bool),
    exec (.holdOffStopped pinQ pin tick) s = .next s ∧ exec (.holdOffRunning pinQ pin) s = .next s ∧
    exec (.holdLowStopped tick) s = .next s ∧ exec .holdLowRunning s = .next s ∧
    exec (.holdHighStopped tick) s = .next s ∧ exec .holdHighRunning s = .next s) ∧
  ∀ (s : State) (pin tick : Bool) (cmd : BitVec 3), edgeBit s.irqEn s.pinQ pin = false →
    (s.run = false ∨ tick = false) →
    ∃ t, exec (.step false pin tick cmd) s = .next t ∧ t.cnt = (if cmd = 1#3 then 0#8 else s.cnt) ∧
      t.run = (if cmd = 1#3 ∨ cmd = 2#3 then false else s.run) ∧ t.slots = s.slots ∧ t.widx = s.widx ∧
      t.full = s.full ∧ t.pinQ = pin

/-- R84: TRACK alone, and in every non-reset cycle, whatever `irq_en` and the command are; so after any cycle, INIT's
too, only a change of the pin is an event. -/
def Obligations.TrackFollowsThePin : Prop :=
  (∀ (s : State) (pin : Bool), exec (.track pin) s = .next { s with pinQ := pin }) ∧
  ∀ (s : State) (pin tick : Bool) (cmd : BitVec 3),
    ∃ t, exec (.step false pin tick cmd) s = .next t ∧ t.pinQ = pin ∧ edgeBit t.irqEn t.pinQ pin = false

/-- R85: on an edge event the offered tick is dropped: the cycle's result does not depend on it, and neither the
Sample nor the count includes it. -/
def Obligations.EdgeEventDropsTheTick : Prop :=
  ∀ (s : State) (pin : Bool) (cmd : BitVec 3), edgeBit s.irqEn s.pinQ pin = true →
    exec (.step false pin true cmd) s = exec (.step false pin false cmd) s ∧
    ∃ t, exec (.step false pin true cmd) s = .next t ∧
      (pin = true → t.cnt = 0#8) ∧ (pin = false → cmd ≠ 1#3 → t.cnt = s.cnt) ∧ (pin = false → t.slot s.widx = s.cnt)

/-- A change of the pin while events are disabled leaves no trace but in `pin_q`: two cycles that differ in the pin
alone end in states that differ in `pin_q` alone. -/
def Obligations.DisabledPinChangeLeavesNoTrace : Prop :=
  ∀ (s : State) (tick : Bool) (cmd : BitVec 3), s.irqEn = false →
    ∃ t u, exec (.step false true tick cmd) s = .next t ∧ exec (.step false false tick cmd) s = .next u ∧
      t = { u with pinQ := true } ∧ u.pinQ = false

/-! ### The ring buffer -/

/-- R90: ADD: the slot at `widx` takes the value, every other slot keeps its own, the index advances modulo 4, the
fourth slot's write sets `full`, a set `full` stays; no other register changes. -/
def Obligations.AddStoresAtTheWriteIndex : Prop :=
  ∀ (s : State) (v : Sample), ∃ t, exec (.add v) s = .next t ∧
    t = { s with slots := t.slots, widx := t.widx, full := t.full } ∧
    t.slot s.widx = v ∧ (∀ a, a ≠ s.widx → t.slot a = s.slot a) ∧
    t.widx.toNat = (s.widx.toNat + 1) % 4 ∧ (s.widx = 3#2 → t.full = true) ∧ (s.widx ≠ 3#2 → t.full = s.full)

/-- R91, R92, R93: the three read operations hand back `full`, the slot, and 4, and write no register. -/
def Obligations.RingReadsHandBackTheirValue : Prop :=
  ∀ (s : State) (i : SlotIdx),
    exec .isFull s = .next { s with intOut := .bit s.full } ∧
    exec (.elementAt i) s = .next { s with intOut := .sample (s.slot i) } ∧
    exec .capacity s = .next { s with intOut := .count 4 }

/-- The operations that are not the ring's writers leave the index, the fill flag and every slot as they were. -/
def Obligations.OnlyRingWritersTouchTheRing : Prop :=
  ∀ (i : Instr) (s t : State), leavesRing i = true → exec i s = .next t →
    t.slots = s.slots ∧ t.widx = s.widx ∧ t.full = s.full ∧ ∀ a, t.slot a = s.slot a

/-- A non-reset cycle without a FALL leaves the ring as it was, whatever the command is. -/
def Obligations.CycleWithoutFallKeepsTheRing : Prop :=
  ∀ (s : State) (pin tick : Bool) (cmd : BitVec 3), s.falls pin = false →
    ∃ t, exec (.step false pin tick cmd) s = .next t ∧ t.widx = s.widx ∧ t.full = s.full ∧
      ∀ a, t.slot a = s.slot a

/-- The fill flag is set only by the push that writes slot 3 and cleared only by reset. -/
def Obligations.FullIsStickyUntilReset : Prop :=
  ∀ s t : State, step s = .next t →
    (rstIn (fetchWord s) = true → t.full = false) ∧
    (rstIn (fetchWord s) = false →
      (t.full = true ↔ s.full = true ∨ (s.falls (pinIn (fetchWord s)) = true ∧ s.widx = 3#2)))

/-! ### The median filter -/

/-- R99: SNAPSHOT copies the four slots of one state and writes nothing else but what it hands back. -/
def Obligations.SnapshotCopiesAllFourSlots : Prop :=
  ∀ s : State, exec .snapshot s = .next { s with
    snap := #v[s.slot 0#2, s.slot 1#2, s.slot 2#2, s.slot 3#2]
    intOut := .four #v[s.slot 0#2, s.slot 1#2, s.slot 2#2, s.slot 3#2] }

/-- R100: SORT4 hands back the sorted multiset of its operands, the only one there is, and writes no register. -/
def Obligations.Sort4GivesTheSortedMultiset : Prop :=
  ∀ a0 a1 a2 a3 : Sample,
    (∃ v, SortedFormOf v a0 a1 a2 a3 ∧
      ∀ s : State, exec (.sort4 a0 a1 a2 a3) s = .next { s with intOut := .four v }) ∧
    ∀ v w : Vector Sample 4, SortedFormOf v a0 a1 a2 a3 → SortedFormOf w a0 a1 a2 a3 → v = w

/-- R102: MEDIAN4 hands back the element at index 2 of the sorted multiset, and writes no register; however its
operands are sorted, that element is the same. -/
def Obligations.Median4IsTheUpperMedian : Prop :=
  ∀ a0 a1 a2 a3 : Sample,
    (∃ v, SortedFormOf v a0 a1 a2 a3 ∧
      ∀ s : State, exec (.median4 a0 a1 a2 a3) s = .next { s with intOut := .sample v[2] }) ∧
    ∀ v : Vector Sample 4, SortedFormOf v a0 a1 a2 a3 → median4 a0 a1 a2 a3 = v[2]

/-- The closed form of MEDIAN4, an inference the spec marks as its own (42_median.md, R103 "[derived: from rule R102]"). -/
def Obligations.Median4HasTheClosedForm : Prop :=
  ∀ a0 a1 a2 a3 : Sample, (median4 a0 a1 a2 a3).toNat = medianClosedForm a0 a1 a2 a3

/-- MEDIAN4 of any arrangement of x, x, x, y is x, and a value below the least or above the greatest may replace it:
the robustness the spec derives in 42_median.md. -/
def Obligations.Median4RejectsOneOutlier : Prop :=
  (∀ x y a0 a1 a2 a3 : Sample, [a0, a1, a2, a3].Perm [x, x, x, y] → median4 a0 a1 a2 a3 = x) ∧
  ∀ (v : Vector Sample 4) (a0 a1 a2 a3 z : Sample), SortedFormOf v a0 a1 a2 a3 →
    (z.toNat ≤ v[0].toNat → median4 z v[1] v[2] v[3] = median4 a0 a1 a2 a3) ∧
    (v[3].toNat ≤ z.toNat → median4 v[0] v[1] v[2] z = median4 a0 a1 a2 a3)

/-- R104: MEDIANORZERO: 0 and no snapshot before the first fill, else the median of the four slots and the
snapshot. -/
def Obligations.MedianOrZeroFoldsNotReadyIntoZero : Prop :=
  ∀ s : State,
    (s.full = false → exec .medianOrZero s = .next { s with intOut := .sample 0#8 }) ∧
    (s.full = true → exec .medianOrZero s = .next { s with
      snap := #v[s.slot 0#2, s.slot 1#2, s.slot 2#2, s.slot 3#2]
      intOut := .sample (median4 (s.slot 0#2) (s.slot 1#2) (s.slot 2#2) (s.slot 3#2)) })

/-- R105: GETMEDIAN alone, in either fill state; no other register changes. -/
def Obligations.GetMedianReturnsTheRawMedian : Prop :=
  ∀ s : State,
    (s.full = false → exec .getMedian s = .next { s with result := 0#8, rvalid := true }) ∧
    (s.full = true → exec .getMedian s = .next { s with
      snap := #v[s.slot 0#2, s.slot 1#2, s.slot 2#2, s.slot 3#2]
      result := median4 (s.slot 0#2) (s.slot 1#2) (s.slot 2#2) (s.slot 3#2)
      rvalid := true })

/-- R50: a read command in a cycle with `full = 1` copies the four slots of the cycle's own pre-state, also when a
push writes one of them in that cycle. -/
def Obligations.SnapshotIsAtomic : Prop :=
  ∀ (s : State) (pin tick : Bool) (cmd : BitVec 3), (cmd = 3#3 ∨ cmd = 4#3) → s.full = true →
    ∃ t, exec (.step false pin tick cmd) s = .next t ∧
      t.snap[0] = s.slot 0#2 ∧ t.snap[1] = s.slot 1#2 ∧ t.snap[2] = s.slot 2#2 ∧ t.snap[3] = s.slot 3#2

/-! ### The Decoder API -/

/-- R110: NOP alone. -/
def Obligations.NopClearsRvalidOnly : Prop :=
  ∀ s : State, exec .nop s = .next { s with rvalid := false }

/-- R111: INIT alone, in every state, the ring, the snapshot, the result and the pin register untouched. Of `reinit`,
the model's own mark of a second INIT (log entry 7), it says nothing. -/
def Obligations.InitEnablesStopsAndZeroes : Prop :=
  ∀ s : State, ∃ t, exec .init s = .next t ∧ t = { s with
    irqEn := true
    run := false
    cnt := 0#8
    inited := true
    rvalid := false
    reinit := t.reinit }

/-- A second INIT since reset, and only it, marks the run as one the source does not support; the mark stays until
reset (the model's own field, log entry 7; R113 asks for it). -/
def Obligations.SecondInitMarksTheRun : Prop :=
  ∀ s t : State, step s = .next t →
    (t.reinit = true ↔ rstIn (fetchWord s) = false ∧
      (s.reinit = true ∨ (cmdIn (fetchWord s) = 1#3 ∧ s.inited = true)))

/-- R114: STOP alone: the count, the ring, the snapshot and the result are held; and the tick of the STOP's own
cycle is still counted. -/
def Obligations.StopDisablesAndHalts : Prop :=
  (∀ s : State, exec .stop s = .next { s with irqEn := false, run := false, rvalid := false }) ∧
  ∀ (s : State) (pin : Bool), edgeBit s.irqEn s.pinQ pin = false → s.run = true →
    ∃ t, exec (.step false pin true 2#3) s = .next t ∧ t.cnt = s.cnt + 1#8 ∧ t.run = false ∧ t.irqEn = false

/-- R116: REBASE hands back 0 below the zero reference and the exact difference from it on, which fits 8 bits; it
writes no register. The second half says it for every value the parameter could take. -/
def Obligations.RebaseClampsAtZero : Prop :=
  (∀ (s : State) (m : Sample), exec (.rebase m) s = .next { s with intOut := .sample (BitVec.ofNat 8
      (if m.toNat < Config.zeroReference.toNat then 0 else m.toNat - Config.zeroReference.toNat)) }) ∧
  ∀ zr m : Sample, (rebaseBy zr m).toNat = (if m.toNat < zr.toNat then 0 else m.toNat - zr.toNat) ∧
    (rebaseBy zr m).toNat ≤ 255 - zr.toNat

/-- The properties of the re-based value that 43_decoder_api.md derives for every zero reference: monotonic, and 0
exactly at or below the reference. -/
def Obligations.RebaseIsMonotonic : Prop :=
  ∀ zr m1 m2 : Sample,
    (m1.toNat ≤ m2.toNat → (rebaseBy zr m1).toNat ≤ (rebaseBy zr m2).toNat) ∧
    (rebaseBy zr m1 = 0#8 ↔ m1.toNat ≤ zr.toNat) ∧
    (zr.toNat < m1.toNat → m1.toNat < m2.toNat → (rebaseBy zr m1).toNat < (rebaseBy zr m2).toNat)

/-- R117: GETVALUE alone, in either fill state, for whatever the zero reference is; no other register changes. -/
def Obligations.GetValueReturnsTheRebasedMedian : Prop :=
  ∀ s : State,
    (s.full = false → exec .getValue s = .next { s with result := 0#8, rvalid := true }) ∧
    (s.full = true → exec .getValue s = .next { s with
      snap := #v[s.slot 0#2, s.slot 1#2, s.slot 2#2, s.slot 3#2]
      result := rebase (median4 (s.slot 0#2) (s.slot 1#2) (s.slot 2#2) (s.slot 3#2))
      rvalid := true })

/-- A read command changes no register but `snap`, `result` and `rvalid`; in a cycle, against a NOP in the same
cycle, everything else is equal: events stay enabled or disabled as they were. -/
def Obligations.ReadCommandsDisturbNothing : Prop :=
  ∀ (s : State) (pin tick : Bool) (cmd : BitVec 3), (cmd = 3#3 ∨ cmd = 4#3) →
    ∃ t u, exec (.step false pin tick cmd) s = .next t ∧ exec (.step false pin tick 0#3) s = .next u ∧
      t = { u with snap := t.snap, result := t.result, rvalid := true } ∧ t.irqEn = s.irqEn

/-- R120: `rvalid` is 1 after a non-reset cycle exactly if its command was a read command; `result` is written by
those alone. -/
def Obligations.ResultIsHeldBetweenReads : Prop :=
  ∀ (s : State) (pin tick : Bool) (cmd : BitVec 3),
    ∃ t, exec (.step false pin tick cmd) s = .next t ∧ (t.rvalid = true ↔ cmd = 3#3 ∨ cmd = 4#3) ∧
      (cmd = 3#3 → t.result = rebase (medianOrZero s)) ∧ (cmd = 4#3 → t.result = medianOrZero s) ∧
      (cmd ≠ 3#3 → cmd ≠ 4#3 → t.result = s.result)

/-- R63: the outputs are the pre-state's `result` and `rvalid`; a read command's value stands on them in the next
cycle, and `rdata_o` keeps it over a further non-reset cycle without a read command. -/
def Obligations.OutputsShowTheResultOneCycleLater : Prop :=
  (∀ s : State, s.rdataO = s.result ∧ s.rvalidO = s.rvalid) ∧
  ∀ s t : State, step s = .next t → rstIn (fetchWord s) = false →
    ((cmdIn (fetchWord s) = 3#3 → t.rdataO = rebase (medianOrZero s) ∧ t.rvalidO = true) ∧
     (cmdIn (fetchWord s) = 4#3 → t.rdataO = medianOrZero s ∧ t.rvalidO = true) ∧
     (cmdIn (fetchWord s) ≠ 3#3 → cmdIn (fetchWord s) ≠ 4#3 → t.rdataO = s.rdataO ∧ t.rvalidO = false))

/-! ### One clock cycle -/

/-- R123, R36: RESET leaves the reset state from every state, whatever the other inputs of its cycle are. Of the
slots and `snap`, unspecified there, it says nothing. -/
def Obligations.ResetLeavesTheResetState : Prop :=
  IsResetState State.reset ∧
  ∀ s : State, ∃ t, exec .reset s = .next t ∧ IsResetState t ∧
    ∀ (pin tick : Bool) (cmd : BitVec 3), exec (.step true pin tick cmd) s = .next t

/-- What the model adds to RESET (the model's own choices, log entries 2 to 7): no slot counts as written, every slot
and `snap` hold the free values of a new draw, the mark of a second INIT is cleared, and the scheduled inputs and the
cycle count, the outside world's, stay. -/
def Obligations.ResetDrawsTheUnspecifiedContentsAfresh : Prop :=
  ∀ s t : State, step s = .next t → rstIn (fetchWord s) = true →
    t.slots = [] ∧ t.draw = s.draw + 1 ∧ (∀ i, t.slot i = Config.slotReset (s.draw + 1) i) ∧
      t.snap = Config.snapReset (s.draw + 1) ∧ t.reinit = false ∧ t.stim = s.stim.tail ∧ t.cycle = s.cycle + 1

/-- R122: STEP is the transition function of the pseudocode, transcribed as `cycleByRule`. Of `reinit`, the model's
own mark of a second INIT (log entry 7), it says nothing. -/
def Obligations.StepIsTheTransitionFunction : Prop :=
  ∀ (s : State) (pin tick : Bool) (cmd : BitVec 3),
    (∃ t, exec (.step false pin tick cmd) s = .next t ∧ t = { cycleByRule pin tick cmd s with reinit := t.reinit }) ∧
    exec (.step true pin tick cmd) s = exec .reset s

/-- Which writer wins for each field, an inference the spec marks as its own (44_cycle_step.md, the table of write
priorities "[derived: from rule R122]"). -/
def Obligations.LaterPhaseOverridesPerField : Prop :=
  ∀ (s : State) (pin tick : Bool) (cmd : BitVec 3),
    ∃ t, exec (.step false pin tick cmd) s = .next t ∧
      t.irqEn = (if cmd = 1#3 then true else if cmd = 2#3 then false else s.irqEn) ∧
      t.run = (if cmd = 1#3 ∨ cmd = 2#3 then false
        else if s.rises pin then true else if s.falls pin then false else s.run) ∧
      t.cnt = (if cmd = 1#3 then 0#8
        else if s.rises pin then 0#8
        else if s.falls pin then s.cnt
        else if s.run && tick then s.cnt + 1#8 else s.cnt) ∧
      t.pinQ = pin ∧
      t.inited = (if cmd = 1#3 then true else s.inited) ∧
      t.rvalid = (if cmd = 3#3 ∨ cmd = 4#3 then true else false) ∧
      (t.widx = if s.falls pin then s.widx + 1#2 else s.widx)

/-- The three operations a cycle composes each have, in their own fields, the effect they have alone: the capture
operation its event vector selects, TRACK, and the command; INIT and STOP override the first in `run` and `cnt`. -/
def Obligations.CycleRunsTheSelectedOperations : Prop :=
  ∀ (s a b t : State) (pin tick : Bool) (cmd : BitVec 3),
    exec (decodeEvent (eventVector s pin tick)) s = .next a → exec (decodeCmd cmd) s = .next b →
    exec (.step false pin tick cmd) s = .next t →
    t = { b with
      slots := a.slots
      widx := a.widx
      full := a.full
      pinQ := pin
      run := if cmd = 1#3 ∨ cmd = 2#3 then b.run else a.run
      cnt := if cmd = 1#3 then b.cnt else a.cnt }

/-- R125: a read command and a FALL in one cycle: the read sees the ring before the push, the push takes effect, and
the next read command sees the new sample. -/
def Obligations.ReadInAPushCycleSeesTheOlderRing : Prop :=
  ∀ (s : State) (tick : Bool) (cmd : BitVec 3), s.falls false = true → (cmd = 3#3 ∨ cmd = 4#3) →
    ∃ t, exec (.step false false tick cmd) s = .next t ∧ t.slot s.widx = s.cnt ∧
      (∀ a, a ≠ s.widx → t.slot a = s.slot a) ∧
      (s.full = false → t.result = 0#8 ∧ t.snap = s.snap) ∧
      (s.full = true → t.snap = #v[s.slot 0#2, s.slot 1#2, s.slot 2#2, s.slot 3#2] ∧
        (cmd = 3#3 → t.result = rebase (median4 (s.slot 0#2) (s.slot 1#2) (s.slot 2#2) (s.slot 3#2))) ∧
        (cmd = 4#3 → t.result = median4 (s.slot 0#2) (s.slot 1#2) (s.slot 2#2) (s.slot 3#2))) ∧
      (t.full = true → ∀ (pin tick : Bool) (cmd : BitVec 3), (cmd = 3#3 ∨ cmd = 4#3) →
        ∃ u, exec (.step false pin tick cmd) t = .next u ∧ u.snap.toList[s.widx.toNat]? = some s.cnt)

/-- R126: STOP in the cycle of an edge event: the event is served, `run` and `irq_en` end 0. -/
def Obligations.StopDoesNotCancelTheEvent : Prop :=
  ∀ (s : State) (tick : Bool),
    (s.falls false = true → ∃ t, exec (.step false false tick 2#3) s = .next t ∧ t.slot s.widx = s.cnt ∧
      t.widx = s.widx + 1#2 ∧ t.run = false ∧ t.irqEn = false ∧ t.cnt = s.cnt) ∧
    (s.rises true = true → ∃ t, exec (.step false true tick 2#3) s = .next t ∧ t.cnt = 0#8 ∧ t.run = false ∧
      t.irqEn = false) ∧
    (∀ pin, edgeBit s.irqEn s.pinQ pin = false → s.run = true →
      ∃ t, exec (.step false pin true 2#3) s = .next t ∧ t.cnt = s.cnt + 1#8 ∧ t.run = false)

/-- R127: INIT with the capture machine in one cycle: with events disabled only TRACK writes beside INIT; in the
re-init case a FALL still pushes, and INIT's `run` and `cnt` override RISE and TICK. -/
def Obligations.InitOverridesTheCaptureMachine : Prop :=
  (∀ (s : State) (pin tick : Bool), s.irqEn = false →
    ∃ t, exec (.step false pin tick 1#3) s = .next t ∧ t = { s with
      irqEn := true
      run := false
      cnt := 0#8
      pinQ := pin
      inited := true
      rvalid := false
      reinit := t.reinit }) ∧
  ∀ (s : State) (pin tick : Bool), ∃ t, exec (.step false pin tick 1#3) s = .next t ∧ t.run = false ∧
    t.cnt = 0#8 ∧ t.irqEn = true ∧
    (s.falls pin = true → t.slot s.widx = s.cnt ∧ t.widx = s.widx + 1#2) ∧
    (s.falls pin = false → t.slots = s.slots ∧ t.widx = s.widx)

/-- R131: the step function returns a next state for every state and every input: no fault, no refusal, of any
operation. -/
def Obligations.EveryOperationIsTotal : Prop :=
  (∀ s : State, ∃ t, step s = .next t) ∧ ∀ (i : Instr) (s : State), ∃ t, exec i s = .next t

/-- A step takes the oldest scheduled stimulus word and executes STEP on its four fields, the cycle counted; with
nothing scheduled it takes the free input of that cycle (log entry 5). -/
def Obligations.StepRunsTheFetchedWord : Prop :=
  (∀ (s : State) (rst pin tick : Bool) (cmd : BitVec 3) (rest : List StimWord),
    s.stim = stimWord rst pin tick cmd :: rest →
    step s = exec (.step rst pin tick cmd) { s with stim := rest, cycle := s.cycle + 1 }) ∧
  ∀ s : State, s.stim = [] →
    step s = exec (decodeStim (Config.freeInput s.cycle)) { s with cycle := s.cycle + 1 }

/-- A command word placed for the next step runs exactly that command; an event word runs its capture operation with
TRACK and NOP beside it; a reset word runs RESET (log entry 10). -/
def Obligations.PlacedWordsRunTheirOperation : Prop :=
  (∀ (s : State) (cmd : BitVec 3), decodeTableWord 3 cmd.toNat = some (decodeCmd cmd) ∧
    step (s.withFetchWord 3 cmd.toNat) = exec (decodeCmd cmd) { s with cycle := s.cycle + 1 }) ∧
  (∀ (s : State) (v : BitVec 5), decodeTableWord 5 v.toNat = some (decodeEvent v) ∧
    ∃ u, exec (decodeEvent v)
        { s with irqEn := v[4], pinQ := v[3], run := v[1], cycle := s.cycle + 1 } = .next u ∧
      step (s.withFetchWord 5 v.toNat) = .next { u with pinQ := v[2], rvalid := false }) ∧
  ∀ s : State, decodeTableWord 1 1 = some .reset ∧
    step (s.withFetchWord 1 1) = exec .reset { s with cycle := s.cycle + 1 }

/-! ### Invariants and whole runs. Those of 10_state.md section 6 are inferences the spec marks as its own
("[derived: ...]"). -/

/-- Every step keeps: a running accumulator has events enabled and a high pin (10_state.md section 6). -/
def Obligations.StepKeepsRunningMeansHigh : Prop :=
  ∀ s t : State, RunningMeansHigh s → step s = .next t → RunningMeansHigh t

/-- Every step keeps: a stopped accumulator under an enabled high pin holds 0; so a FALL that finds `run = 0` pushes
0 (10_state.md section 6). -/
def Obligations.StepKeepsIdleHighHoldsZero : Prop :=
  (∀ s t : State, IdleHighHoldsZero s → step s = .next t → IdleHighHoldsZero t) ∧
  ∀ (s : State) (tick : Bool) (cmd : BitVec 3), IdleHighHoldsZero s → s.falls false = true → s.run = false →
    ∃ t, exec (.step false false tick cmd) s = .next t ∧ t.slot s.widx = 0#8

/-- Every step keeps the ring's shape: once full all four slots have been written since reset, before that exactly
those below `widx`; and the shape implies the memory's canonical form (10_state.md section 6). -/
def Obligations.StepKeepsTheRingShape : Prop :=
  (∀ s t : State, RingShape s → step s = .next t → RingShape t) ∧
  ∀ s : State, RingShape s → Memory.wf s.slots = true

/-- Every operation and every step keep the canonical form of the ring storage. -/
def Obligations.MemoryStaysCanonical : Prop :=
  (∀ (i : Instr) (s t : State), Memory.wf s.slots = true → exec i s = .next t → Memory.wf t.slots = true) ∧
  ∀ s t : State, Memory.wf s.slots = true → step s = .next t → Memory.wf t.slots = true

/-- The reset state satisfies the invariants, with no pushes counted. -/
def Obligations.ResetStateSatisfiesTheInvariants : Prop :=
  RunningMeansHigh State.reset ∧ IdleHighHoldsZero State.reset ∧ RingShape State.reset ∧
    Memory.wf State.reset.slots = true ∧ HoldsHistory [] State.reset ∧ State.reset.supported

/-- Every step keeps the count of pushes in `widx` and `full` (10_state.md section 6). -/
def Obligations.WidxAndFullCountThePushes : Prop :=
  ∀ (p : Nat) (s t : State), RingCount p s → step s = .next t →
    RingCount (if rstIn (fetchWord s) then 0 else if s.falls (pinIn (fetchWord s)) then p + 1 else p) t

/-- Every step keeps: the ring holds the most recent pushes in write order (10_state.md section 6). -/
def Obligations.RingHoldsTheMostRecentSamples : Prop :=
  ∀ (h : List Sample) (s t : State), HoldsHistory h s → step s = .next t →
    HoldsHistory (historyAfter h s (fetchWord s)) t

/-- No output ever depends on the unspecified reset contents: two states that agree but for slots not yet written and
`snap` step to states that agree again, so `rdata_o` and `rvalid_o` are equal in every cycle (10_state.md section 6). -/
def Obligations.NoOutputDependsOnResetContents : Prop :=
  ∀ s u t : State, SameButResetContents s u → step s = .next t →
    ∃ v, step u = .next v ∧ SameButResetContents t v ∧ t.rdataO = v.rdataO ∧ t.rvalidO = v.rvalidO

/-- What a Sample measures: over the cycles of a pulse, with any tick pattern and any command but INIT and STOP, the
value pushed is the number of ticks offered strictly between RISE and FALL, modulo 256 (40_capture.md section 4,
derived there). -/
def Obligations.SampleCountsTheTicksBetweenTheEdges : Prop :=
  ∀ (s : State) (w0 w1 : StimWord) (ms rest : List StimWord), s.irqEn = true → s.pinQ = false →
    HighCycle w0 → (∀ m ∈ ms, HighCycle m) → LowCycle w1 → s.stim = w0 :: (ms ++ w1 :: rest) →
    ∃ t, Host.Core.run Sys2Proof.core (ms.length + 2) s = .next t ∧
      t.slot s.widx = BitVec.ofNat 8 (ms.countP tickIn) ∧ (∀ a, a ≠ s.widx → t.slot a = s.slot a) ∧
      t.widx = s.widx + 1#2 ∧ t.run = false ∧ t.irqEn = true ∧ t.pinQ = false ∧ t.stim = rest

/-- The round trip the spec derives in 43_decoder_api.md: after four pulses of equal width k below 256, in any state
with events enabled and a low pin, GETVALUE returns max(0, k - ZERO_REFERENCE). -/
def Obligations.FourEqualPulsesRoundTrip : Prop :=
  ∀ (s : State) (k : Nat) (p1 p2 p3 p4 rest : List StimWord) (w : StimWord), k < 256 →
    s.irqEn = true → s.pinQ = false → IsPulse k p1 → IsPulse k p2 → IsPulse k p3 → IsPulse k p4 →
    rstIn w = false → cmdIn w = 3#3 → s.stim = p1 ++ p2 ++ p3 ++ p4 ++ w :: rest →
    ∃ t, Host.Core.run Sys2Proof.core (p1.length + p2.length + p3.length + p4.length + 1) s = .next t ∧
      t.result.toNat = k - Config.zeroReference.toNat ∧ t.rvalid = true
end

