-- ==== Sys2Proof/Laws/State.lean ====
section
/-! SUPPORT. One lemma per field per write: what the field is after it, and that a slot is what it was unless the ring
is written. -/

namespace Sys2Proof.Machine

@[simp] theorem writeRise_irqEn (s' : State) : (writeRise s').irqEn = s'.irqEn := rfl
@[simp] theorem writeRise_run (s' : State) : (writeRise s').run = true := rfl
@[simp] theorem writeRise_cnt (s' : State) : (writeRise s').cnt = 0#8 := rfl
@[simp] theorem writeRise_pinQ (s' : State) : (writeRise s').pinQ = s'.pinQ := rfl
@[simp] theorem writeRise_slots (s' : State) : (writeRise s').slots = s'.slots := rfl
@[simp] theorem writeRise_widx (s' : State) : (writeRise s').widx = s'.widx := rfl
@[simp] theorem writeRise_full (s' : State) : (writeRise s').full = s'.full := rfl
@[simp] theorem writeRise_snap (s' : State) : (writeRise s').snap = s'.snap := rfl
@[simp] theorem writeRise_result (s' : State) : (writeRise s').result = s'.result := rfl
@[simp] theorem writeRise_rvalid (s' : State) : (writeRise s').rvalid = s'.rvalid := rfl
@[simp] theorem writeRise_inited (s' : State) : (writeRise s').inited = s'.inited := rfl
@[simp] theorem writeRise_reinit (s' : State) : (writeRise s').reinit = s'.reinit := rfl
@[simp] theorem writeRise_intOut (s' : State) : (writeRise s').intOut = s'.intOut := rfl
@[simp] theorem writeRise_draw (s' : State) : (writeRise s').draw = s'.draw := rfl
@[simp] theorem writeRise_stim (s' : State) : (writeRise s').stim = s'.stim := rfl
@[simp] theorem writeRise_cycle (s' : State) : (writeRise s').cycle = s'.cycle := rfl
@[simp] theorem writeRise_slot (s' : State) (i : SlotIdx) : (writeRise s').slot i = s'.slot i := rfl

@[simp] theorem writeAdd_irqEn (v : Sample) (s s' : State) : (writeAdd v s s').irqEn = s'.irqEn := rfl
@[simp] theorem writeAdd_run (v : Sample) (s s' : State) : (writeAdd v s s').run = s'.run := rfl
@[simp] theorem writeAdd_cnt (v : Sample) (s s' : State) : (writeAdd v s s').cnt = s'.cnt := rfl
@[simp] theorem writeAdd_pinQ (v : Sample) (s s' : State) : (writeAdd v s s').pinQ = s'.pinQ := rfl
@[simp] theorem writeAdd_slots (v : Sample) (s s' : State) : (writeAdd v s s').slots = Memory.write s'.slots s.widx.toNat v := rfl
@[simp] theorem writeAdd_widx (v : Sample) (s s' : State) : (writeAdd v s s').widx = s.widx + 1#2 := rfl
@[simp] theorem writeAdd_full (v : Sample) (s s' : State) : (writeAdd v s s').full = fullAfterAdd s.widx s'.full := rfl
@[simp] theorem writeAdd_snap (v : Sample) (s s' : State) : (writeAdd v s s').snap = s'.snap := rfl
@[simp] theorem writeAdd_result (v : Sample) (s s' : State) : (writeAdd v s s').result = s'.result := rfl
@[simp] theorem writeAdd_rvalid (v : Sample) (s s' : State) : (writeAdd v s s').rvalid = s'.rvalid := rfl
@[simp] theorem writeAdd_inited (v : Sample) (s s' : State) : (writeAdd v s s').inited = s'.inited := rfl
@[simp] theorem writeAdd_reinit (v : Sample) (s s' : State) : (writeAdd v s s').reinit = s'.reinit := rfl
@[simp] theorem writeAdd_intOut (v : Sample) (s s' : State) : (writeAdd v s s').intOut = s'.intOut := rfl
@[simp] theorem writeAdd_draw (v : Sample) (s s' : State) : (writeAdd v s s').draw = s'.draw := rfl
@[simp] theorem writeAdd_stim (v : Sample) (s s' : State) : (writeAdd v s s').stim = s'.stim := rfl
@[simp] theorem writeAdd_cycle (v : Sample) (s s' : State) : (writeAdd v s s').cycle = s'.cycle := rfl

@[simp] theorem writeFall_irqEn (s s' : State) : (writeFall s s').irqEn = s'.irqEn := rfl
@[simp] theorem writeFall_run (s s' : State) : (writeFall s s').run = false := rfl
@[simp] theorem writeFall_cnt (s s' : State) : (writeFall s s').cnt = s'.cnt := rfl
@[simp] theorem writeFall_pinQ (s s' : State) : (writeFall s s').pinQ = s'.pinQ := rfl
@[simp] theorem writeFall_slots (s s' : State) : (writeFall s s').slots = Memory.write s'.slots s.widx.toNat s.cnt := rfl
@[simp] theorem writeFall_widx (s s' : State) : (writeFall s s').widx = s.widx + 1#2 := rfl
@[simp] theorem writeFall_full (s s' : State) : (writeFall s s').full = fullAfterAdd s.widx s'.full := rfl
@[simp] theorem writeFall_snap (s s' : State) : (writeFall s s').snap = s'.snap := rfl
@[simp] theorem writeFall_result (s s' : State) : (writeFall s s').result = s'.result := rfl
@[simp] theorem writeFall_rvalid (s s' : State) : (writeFall s s').rvalid = s'.rvalid := rfl
@[simp] theorem writeFall_inited (s s' : State) : (writeFall s s').inited = s'.inited := rfl
@[simp] theorem writeFall_reinit (s s' : State) : (writeFall s s').reinit = s'.reinit := rfl
@[simp] theorem writeFall_intOut (s s' : State) : (writeFall s s').intOut = s'.intOut := rfl
@[simp] theorem writeFall_draw (s s' : State) : (writeFall s s').draw = s'.draw := rfl
@[simp] theorem writeFall_stim (s s' : State) : (writeFall s s').stim = s'.stim := rfl
@[simp] theorem writeFall_cycle (s s' : State) : (writeFall s s').cycle = s'.cycle := rfl

@[simp] theorem writeTick_irqEn (s s' : State) : (writeTick s s').irqEn = s'.irqEn := rfl
@[simp] theorem writeTick_run (s s' : State) : (writeTick s s').run = s'.run := rfl
@[simp] theorem writeTick_cnt (s s' : State) : (writeTick s s').cnt = s.cnt + 1#8 := rfl
@[simp] theorem writeTick_pinQ (s s' : State) : (writeTick s s').pinQ = s'.pinQ := rfl
@[simp] theorem writeTick_slots (s s' : State) : (writeTick s s').slots = s'.slots := rfl
@[simp] theorem writeTick_widx (s s' : State) : (writeTick s s').widx = s'.widx := rfl
@[simp] theorem writeTick_full (s s' : State) : (writeTick s s').full = s'.full := rfl
@[simp] theorem writeTick_snap (s s' : State) : (writeTick s s').snap = s'.snap := rfl
@[simp] theorem writeTick_result (s s' : State) : (writeTick s s').result = s'.result := rfl
@[simp] theorem writeTick_rvalid (s s' : State) : (writeTick s s').rvalid = s'.rvalid := rfl
@[simp] theorem writeTick_inited (s s' : State) : (writeTick s s').inited = s'.inited := rfl
@[simp] theorem writeTick_reinit (s s' : State) : (writeTick s s').reinit = s'.reinit := rfl
@[simp] theorem writeTick_intOut (s s' : State) : (writeTick s s').intOut = s'.intOut := rfl
@[simp] theorem writeTick_draw (s s' : State) : (writeTick s s').draw = s'.draw := rfl
@[simp] theorem writeTick_stim (s s' : State) : (writeTick s s').stim = s'.stim := rfl
@[simp] theorem writeTick_cycle (s s' : State) : (writeTick s s').cycle = s'.cycle := rfl
@[simp] theorem writeTick_slot (s s' : State) (i : SlotIdx) : (writeTick s s').slot i = s'.slot i := rfl

@[simp] theorem writeHold_irqEn (s' : State) : (writeHold s').irqEn = s'.irqEn := rfl
@[simp] theorem writeHold_run (s' : State) : (writeHold s').run = s'.run := rfl
@[simp] theorem writeHold_cnt (s' : State) : (writeHold s').cnt = s'.cnt := rfl
@[simp] theorem writeHold_pinQ (s' : State) : (writeHold s').pinQ = s'.pinQ := rfl
@[simp] theorem writeHold_slots (s' : State) : (writeHold s').slots = s'.slots := rfl
@[simp] theorem writeHold_widx (s' : State) : (writeHold s').widx = s'.widx := rfl
@[simp] theorem writeHold_full (s' : State) : (writeHold s').full = s'.full := rfl
@[simp] theorem writeHold_snap (s' : State) : (writeHold s').snap = s'.snap := rfl
@[simp] theorem writeHold_result (s' : State) : (writeHold s').result = s'.result := rfl
@[simp] theorem writeHold_rvalid (s' : State) : (writeHold s').rvalid = s'.rvalid := rfl
@[simp] theorem writeHold_inited (s' : State) : (writeHold s').inited = s'.inited := rfl
@[simp] theorem writeHold_reinit (s' : State) : (writeHold s').reinit = s'.reinit := rfl
@[simp] theorem writeHold_intOut (s' : State) : (writeHold s').intOut = s'.intOut := rfl
@[simp] theorem writeHold_draw (s' : State) : (writeHold s').draw = s'.draw := rfl
@[simp] theorem writeHold_stim (s' : State) : (writeHold s').stim = s'.stim := rfl
@[simp] theorem writeHold_cycle (s' : State) : (writeHold s').cycle = s'.cycle := rfl
@[simp] theorem writeHold_slot (s' : State) (i : SlotIdx) : (writeHold s').slot i = s'.slot i := rfl

@[simp] theorem writeTrack_irqEn (pin : Bool) (s' : State) : (writeTrack pin s').irqEn = s'.irqEn := rfl
@[simp] theorem writeTrack_run (pin : Bool) (s' : State) : (writeTrack pin s').run = s'.run := rfl
@[simp] theorem writeTrack_cnt (pin : Bool) (s' : State) : (writeTrack pin s').cnt = s'.cnt := rfl
@[simp] theorem writeTrack_pinQ (pin : Bool) (s' : State) : (writeTrack pin s').pinQ = pin := rfl
@[simp] theorem writeTrack_slots (pin : Bool) (s' : State) : (writeTrack pin s').slots = s'.slots := rfl
@[simp] theorem writeTrack_widx (pin : Bool) (s' : State) : (writeTrack pin s').widx = s'.widx := rfl
@[simp] theorem writeTrack_full (pin : Bool) (s' : State) : (writeTrack pin s').full = s'.full := rfl
@[simp] theorem writeTrack_snap (pin : Bool) (s' : State) : (writeTrack pin s').snap = s'.snap := rfl
@[simp] theorem writeTrack_result (pin : Bool) (s' : State) : (writeTrack pin s').result = s'.result := rfl
@[simp] theorem writeTrack_rvalid (pin : Bool) (s' : State) : (writeTrack pin s').rvalid = s'.rvalid := rfl
@[simp] theorem writeTrack_inited (pin : Bool) (s' : State) : (writeTrack pin s').inited = s'.inited := rfl
@[simp] theorem writeTrack_reinit (pin : Bool) (s' : State) : (writeTrack pin s').reinit = s'.reinit := rfl
@[simp] theorem writeTrack_intOut (pin : Bool) (s' : State) : (writeTrack pin s').intOut = s'.intOut := rfl
@[simp] theorem writeTrack_draw (pin : Bool) (s' : State) : (writeTrack pin s').draw = s'.draw := rfl
@[simp] theorem writeTrack_stim (pin : Bool) (s' : State) : (writeTrack pin s').stim = s'.stim := rfl
@[simp] theorem writeTrack_cycle (pin : Bool) (s' : State) : (writeTrack pin s').cycle = s'.cycle := rfl
@[simp] theorem writeTrack_slot (pin : Bool) (s' : State) (i : SlotIdx) : (writeTrack pin s').slot i = s'.slot i := rfl

@[simp] theorem writeSnapshot_irqEn (s s' : State) : (writeSnapshot s s').irqEn = s'.irqEn := rfl
@[simp] theorem writeSnapshot_run (s s' : State) : (writeSnapshot s s').run = s'.run := rfl
@[simp] theorem writeSnapshot_cnt (s s' : State) : (writeSnapshot s s').cnt = s'.cnt := rfl
@[simp] theorem writeSnapshot_pinQ (s s' : State) : (writeSnapshot s s').pinQ = s'.pinQ := rfl
@[simp] theorem writeSnapshot_slots (s s' : State) : (writeSnapshot s s').slots = s'.slots := rfl
@[simp] theorem writeSnapshot_widx (s s' : State) : (writeSnapshot s s').widx = s'.widx := rfl
@[simp] theorem writeSnapshot_full (s s' : State) : (writeSnapshot s s').full = s'.full := rfl
@[simp] theorem writeSnapshot_snap (s s' : State) : (writeSnapshot s s').snap = snapshotOf s := rfl
@[simp] theorem writeSnapshot_result (s s' : State) : (writeSnapshot s s').result = s'.result := rfl
@[simp] theorem writeSnapshot_rvalid (s s' : State) : (writeSnapshot s s').rvalid = s'.rvalid := rfl
@[simp] theorem writeSnapshot_inited (s s' : State) : (writeSnapshot s s').inited = s'.inited := rfl
@[simp] theorem writeSnapshot_reinit (s s' : State) : (writeSnapshot s s').reinit = s'.reinit := rfl
@[simp] theorem writeSnapshot_intOut (s s' : State) : (writeSnapshot s s').intOut = s'.intOut := rfl
@[simp] theorem writeSnapshot_draw (s s' : State) : (writeSnapshot s s').draw = s'.draw := rfl
@[simp] theorem writeSnapshot_stim (s s' : State) : (writeSnapshot s s').stim = s'.stim := rfl
@[simp] theorem writeSnapshot_cycle (s s' : State) : (writeSnapshot s s').cycle = s'.cycle := rfl
@[simp] theorem writeSnapshot_slot (s s' : State) (i : SlotIdx) : (writeSnapshot s s').slot i = s'.slot i := rfl

@[simp] theorem writeResult_irqEn (v : Sample) (s' : State) : (writeResult v s').irqEn = s'.irqEn := rfl
@[simp] theorem writeResult_run (v : Sample) (s' : State) : (writeResult v s').run = s'.run := rfl
@[simp] theorem writeResult_cnt (v : Sample) (s' : State) : (writeResult v s').cnt = s'.cnt := rfl
@[simp] theorem writeResult_pinQ (v : Sample) (s' : State) : (writeResult v s').pinQ = s'.pinQ := rfl
@[simp] theorem writeResult_slots (v : Sample) (s' : State) : (writeResult v s').slots = s'.slots := rfl
@[simp] theorem writeResult_widx (v : Sample) (s' : State) : (writeResult v s').widx = s'.widx := rfl
@[simp] theorem writeResult_full (v : Sample) (s' : State) : (writeResult v s').full = s'.full := rfl
@[simp] theorem writeResult_snap (v : Sample) (s' : State) : (writeResult v s').snap = s'.snap := rfl
@[simp] theorem writeResult_result (v : Sample) (s' : State) : (writeResult v s').result = v := rfl
@[simp] theorem writeResult_rvalid (v : Sample) (s' : State) : (writeResult v s').rvalid = true := rfl
@[simp] theorem writeResult_inited (v : Sample) (s' : State) : (writeResult v s').inited = s'.inited := rfl
@[simp] theorem writeResult_reinit (v : Sample) (s' : State) : (writeResult v s').reinit = s'.reinit := rfl
@[simp] theorem writeResult_intOut (v : Sample) (s' : State) : (writeResult v s').intOut = s'.intOut := rfl
@[simp] theorem writeResult_draw (v : Sample) (s' : State) : (writeResult v s').draw = s'.draw := rfl
@[simp] theorem writeResult_stim (v : Sample) (s' : State) : (writeResult v s').stim = s'.stim := rfl
@[simp] theorem writeResult_cycle (v : Sample) (s' : State) : (writeResult v s').cycle = s'.cycle := rfl
@[simp] theorem writeResult_slot (v : Sample) (s' : State) (i : SlotIdx) : (writeResult v s').slot i = s'.slot i := rfl

@[simp] theorem writeNop_irqEn (s' : State) : (writeNop s').irqEn = s'.irqEn := rfl
@[simp] theorem writeNop_run (s' : State) : (writeNop s').run = s'.run := rfl
@[simp] theorem writeNop_cnt (s' : State) : (writeNop s').cnt = s'.cnt := rfl
@[simp] theorem writeNop_pinQ (s' : State) : (writeNop s').pinQ = s'.pinQ := rfl
@[simp] theorem writeNop_slots (s' : State) : (writeNop s').slots = s'.slots := rfl
@[simp] theorem writeNop_widx (s' : State) : (writeNop s').widx = s'.widx := rfl
@[simp] theorem writeNop_full (s' : State) : (writeNop s').full = s'.full := rfl
@[simp] theorem writeNop_snap (s' : State) : (writeNop s').snap = s'.snap := rfl
@[simp] theorem writeNop_result (s' : State) : (writeNop s').result = s'.result := rfl
@[simp] theorem writeNop_rvalid (s' : State) : (writeNop s').rvalid = false := rfl
@[simp] theorem writeNop_inited (s' : State) : (writeNop s').inited = s'.inited := rfl
@[simp] theorem writeNop_reinit (s' : State) : (writeNop s').reinit = s'.reinit := rfl
@[simp] theorem writeNop_intOut (s' : State) : (writeNop s').intOut = s'.intOut := rfl
@[simp] theorem writeNop_draw (s' : State) : (writeNop s').draw = s'.draw := rfl
@[simp] theorem writeNop_stim (s' : State) : (writeNop s').stim = s'.stim := rfl
@[simp] theorem writeNop_cycle (s' : State) : (writeNop s').cycle = s'.cycle := rfl
@[simp] theorem writeNop_slot (s' : State) (i : SlotIdx) : (writeNop s').slot i = s'.slot i := rfl

@[simp] theorem writeInit_irqEn (s s' : State) : (writeInit s s').irqEn = true := rfl
@[simp] theorem writeInit_run (s s' : State) : (writeInit s s').run = false := rfl
@[simp] theorem writeInit_cnt (s s' : State) : (writeInit s s').cnt = 0#8 := rfl
@[simp] theorem writeInit_pinQ (s s' : State) : (writeInit s s').pinQ = s'.pinQ := rfl
@[simp] theorem writeInit_slots (s s' : State) : (writeInit s s').slots = s'.slots := rfl
@[simp] theorem writeInit_widx (s s' : State) : (writeInit s s').widx = s'.widx := rfl
@[simp] theorem writeInit_full (s s' : State) : (writeInit s s').full = s'.full := rfl
@[simp] theorem writeInit_snap (s s' : State) : (writeInit s s').snap = s'.snap := rfl
@[simp] theorem writeInit_result (s s' : State) : (writeInit s s').result = s'.result := rfl
@[simp] theorem writeInit_rvalid (s s' : State) : (writeInit s s').rvalid = false := rfl
@[simp] theorem writeInit_inited (s s' : State) : (writeInit s s').inited = true := rfl
@[simp] theorem writeInit_reinit (s s' : State) : (writeInit s s').reinit = reinitAfterInit s.inited s'.reinit := rfl
@[simp] theorem writeInit_intOut (s s' : State) : (writeInit s s').intOut = s'.intOut := rfl
@[simp] theorem writeInit_draw (s s' : State) : (writeInit s s').draw = s'.draw := rfl
@[simp] theorem writeInit_stim (s s' : State) : (writeInit s s').stim = s'.stim := rfl
@[simp] theorem writeInit_cycle (s s' : State) : (writeInit s s').cycle = s'.cycle := rfl
@[simp] theorem writeInit_slot (s s' : State) (i : SlotIdx) : (writeInit s s').slot i = s'.slot i := rfl

@[simp] theorem writeStop_irqEn (s' : State) : (writeStop s').irqEn = false := rfl
@[simp] theorem writeStop_run (s' : State) : (writeStop s').run = false := rfl
@[simp] theorem writeStop_cnt (s' : State) : (writeStop s').cnt = s'.cnt := rfl
@[simp] theorem writeStop_pinQ (s' : State) : (writeStop s').pinQ = s'.pinQ := rfl
@[simp] theorem writeStop_slots (s' : State) : (writeStop s').slots = s'.slots := rfl
@[simp] theorem writeStop_widx (s' : State) : (writeStop s').widx = s'.widx := rfl
@[simp] theorem writeStop_full (s' : State) : (writeStop s').full = s'.full := rfl
@[simp] theorem writeStop_snap (s' : State) : (writeStop s').snap = s'.snap := rfl
@[simp] theorem writeStop_result (s' : State) : (writeStop s').result = s'.result := rfl
@[simp] theorem writeStop_rvalid (s' : State) : (writeStop s').rvalid = false := rfl
@[simp] theorem writeStop_inited (s' : State) : (writeStop s').inited = s'.inited := rfl
@[simp] theorem writeStop_reinit (s' : State) : (writeStop s').reinit = s'.reinit := rfl
@[simp] theorem writeStop_intOut (s' : State) : (writeStop s').intOut = s'.intOut := rfl
@[simp] theorem writeStop_draw (s' : State) : (writeStop s').draw = s'.draw := rfl
@[simp] theorem writeStop_stim (s' : State) : (writeStop s').stim = s'.stim := rfl
@[simp] theorem writeStop_cycle (s' : State) : (writeStop s').cycle = s'.cycle := rfl
@[simp] theorem writeStop_slot (s' : State) (i : SlotIdx) : (writeStop s').slot i = s'.slot i := rfl

@[simp] theorem handBack_irqEn (v : IntOut) (s : State) : (handBack v s).irqEn = s.irqEn := rfl
@[simp] theorem handBack_run (v : IntOut) (s : State) : (handBack v s).run = s.run := rfl
@[simp] theorem handBack_cnt (v : IntOut) (s : State) : (handBack v s).cnt = s.cnt := rfl
@[simp] theorem handBack_pinQ (v : IntOut) (s : State) : (handBack v s).pinQ = s.pinQ := rfl
@[simp] theorem handBack_slots (v : IntOut) (s : State) : (handBack v s).slots = s.slots := rfl
@[simp] theorem handBack_widx (v : IntOut) (s : State) : (handBack v s).widx = s.widx := rfl
@[simp] theorem handBack_full (v : IntOut) (s : State) : (handBack v s).full = s.full := rfl
@[simp] theorem handBack_snap (v : IntOut) (s : State) : (handBack v s).snap = s.snap := rfl
@[simp] theorem handBack_result (v : IntOut) (s : State) : (handBack v s).result = s.result := rfl
@[simp] theorem handBack_rvalid (v : IntOut) (s : State) : (handBack v s).rvalid = s.rvalid := rfl
@[simp] theorem handBack_inited (v : IntOut) (s : State) : (handBack v s).inited = s.inited := rfl
@[simp] theorem handBack_reinit (v : IntOut) (s : State) : (handBack v s).reinit = s.reinit := rfl
@[simp] theorem handBack_intOut (v : IntOut) (s : State) : (handBack v s).intOut = v := rfl
@[simp] theorem handBack_draw (v : IntOut) (s : State) : (handBack v s).draw = s.draw := rfl
@[simp] theorem handBack_stim (v : IntOut) (s : State) : (handBack v s).stim = s.stim := rfl
@[simp] theorem handBack_cycle (v : IntOut) (s : State) : (handBack v s).cycle = s.cycle := rfl
@[simp] theorem handBack_slot (v : IntOut) (s : State) (i : SlotIdx) : (handBack v s).slot i = s.slot i := rfl

@[simp] theorem takeWord_irqEn (s : State) : (takeWord s).irqEn = s.irqEn := rfl
@[simp] theorem takeWord_run (s : State) : (takeWord s).run = s.run := rfl
@[simp] theorem takeWord_cnt (s : State) : (takeWord s).cnt = s.cnt := rfl
@[simp] theorem takeWord_pinQ (s : State) : (takeWord s).pinQ = s.pinQ := rfl
@[simp] theorem takeWord_slots (s : State) : (takeWord s).slots = s.slots := rfl
@[simp] theorem takeWord_widx (s : State) : (takeWord s).widx = s.widx := rfl
@[simp] theorem takeWord_full (s : State) : (takeWord s).full = s.full := rfl
@[simp] theorem takeWord_snap (s : State) : (takeWord s).snap = s.snap := rfl
@[simp] theorem takeWord_result (s : State) : (takeWord s).result = s.result := rfl
@[simp] theorem takeWord_rvalid (s : State) : (takeWord s).rvalid = s.rvalid := rfl
@[simp] theorem takeWord_inited (s : State) : (takeWord s).inited = s.inited := rfl
@[simp] theorem takeWord_reinit (s : State) : (takeWord s).reinit = s.reinit := rfl
@[simp] theorem takeWord_intOut (s : State) : (takeWord s).intOut = s.intOut := rfl
@[simp] theorem takeWord_draw (s : State) : (takeWord s).draw = s.draw := rfl
@[simp] theorem takeWord_stim (s : State) : (takeWord s).stim = s.stim.tail := rfl
@[simp] theorem takeWord_cycle (s : State) : (takeWord s).cycle = s.cycle + 1 := rfl
@[simp] theorem takeWord_slot (s : State) (i : SlotIdx) : (takeWord s).slot i = s.slot i := rfl

@[simp] theorem writeReset_irqEn (s : State) : (writeReset s).irqEn = false := rfl
@[simp] theorem writeReset_run (s : State) : (writeReset s).run = false := rfl
@[simp] theorem writeReset_cnt (s : State) : (writeReset s).cnt = 0#8 := rfl
@[simp] theorem writeReset_pinQ (s : State) : (writeReset s).pinQ = false := rfl
@[simp] theorem writeReset_slots (s : State) : (writeReset s).slots = [] := rfl
@[simp] theorem writeReset_widx (s : State) : (writeReset s).widx = 0#2 := rfl
@[simp] theorem writeReset_full (s : State) : (writeReset s).full = false := rfl
@[simp] theorem writeReset_snap (s : State) : (writeReset s).snap = Config.snapReset (s.draw + 1) := rfl
@[simp] theorem writeReset_result (s : State) : (writeReset s).result = 0#8 := rfl
@[simp] theorem writeReset_rvalid (s : State) : (writeReset s).rvalid = false := rfl
@[simp] theorem writeReset_inited (s : State) : (writeReset s).inited = false := rfl
@[simp] theorem writeReset_reinit (s : State) : (writeReset s).reinit = false := rfl
@[simp] theorem writeReset_intOut (s : State) : (writeReset s).intOut = .none := rfl
@[simp] theorem writeReset_draw (s : State) : (writeReset s).draw = s.draw + 1 := rfl
@[simp] theorem writeReset_stim (s : State) : (writeReset s).stim = s.stim := rfl
@[simp] theorem writeReset_cycle (s : State) : (writeReset s).cycle = s.cycle := rfl

@[simp] theorem writeMedianOrZero_irqEn (s s' : State) : (writeMedianOrZero s s').irqEn = s'.irqEn := by
  unfold writeMedianOrZero; split <;> rfl
@[simp] theorem writeMedianOrZero_run (s s' : State) : (writeMedianOrZero s s').run = s'.run := by
  unfold writeMedianOrZero; split <;> rfl
@[simp] theorem writeMedianOrZero_cnt (s s' : State) : (writeMedianOrZero s s').cnt = s'.cnt := by
  unfold writeMedianOrZero; split <;> rfl
@[simp] theorem writeMedianOrZero_pinQ (s s' : State) : (writeMedianOrZero s s').pinQ = s'.pinQ := by
  unfold writeMedianOrZero; split <;> rfl
@[simp] theorem writeMedianOrZero_slots (s s' : State) : (writeMedianOrZero s s').slots = s'.slots := by
  unfold writeMedianOrZero; split <;> rfl
@[simp] theorem writeMedianOrZero_widx (s s' : State) : (writeMedianOrZero s s').widx = s'.widx := by
  unfold writeMedianOrZero; split <;> rfl
@[simp] theorem writeMedianOrZero_full (s s' : State) : (writeMedianOrZero s s').full = s'.full := by
  unfold writeMedianOrZero; split <;> rfl
@[simp] theorem writeMedianOrZero_snap (s s' : State) :
    (writeMedianOrZero s s').snap = if s.full then snapshotOf s else s'.snap := by
  unfold writeMedianOrZero isFull; split <;> rfl
@[simp] theorem writeMedianOrZero_result (s s' : State) : (writeMedianOrZero s s').result = s'.result := by
  unfold writeMedianOrZero; split <;> rfl
@[simp] theorem writeMedianOrZero_rvalid (s s' : State) : (writeMedianOrZero s s').rvalid = s'.rvalid := by
  unfold writeMedianOrZero; split <;> rfl
@[simp] theorem writeMedianOrZero_inited (s s' : State) : (writeMedianOrZero s s').inited = s'.inited := by
  unfold writeMedianOrZero; split <;> rfl
@[simp] theorem writeMedianOrZero_reinit (s s' : State) : (writeMedianOrZero s s').reinit = s'.reinit := by
  unfold writeMedianOrZero; split <;> rfl
@[simp] theorem writeMedianOrZero_intOut (s s' : State) : (writeMedianOrZero s s').intOut = s'.intOut := by
  unfold writeMedianOrZero; split <;> rfl
@[simp] theorem writeMedianOrZero_draw (s s' : State) : (writeMedianOrZero s s').draw = s'.draw := by
  unfold writeMedianOrZero; split <;> rfl
@[simp] theorem writeMedianOrZero_stim (s s' : State) : (writeMedianOrZero s s').stim = s'.stim := by
  unfold writeMedianOrZero; split <;> rfl
@[simp] theorem writeMedianOrZero_cycle (s s' : State) : (writeMedianOrZero s s').cycle = s'.cycle := by
  unfold writeMedianOrZero; split <;> rfl
@[simp] theorem writeMedianOrZero_slot (s s' : State) (i : SlotIdx) :
    (writeMedianOrZero s s').slot i = s'.slot i := by
  unfold writeMedianOrZero; split <;> rfl

end Sys2Proof.Machine
end

