-- ==== Sys2Proof/Laws/Memory.lean ====
section
/-! SUPPORT. The laws of the ring storage: a read after a write, and that the canonical form is kept. -/

namespace Sys2Proof.Machine

theorem Memory.read_write_same (m : Memory) (a : Nat) (v : Sample) :
    Memory.read (Memory.write m a v) a = some v := by
  induction m with
  | nil => simp [Memory.write, Memory.read]
  | cons c m ih =>
    obtain ⟨b, w⟩ := c
    simp only [Memory.write]
    split
    · simp [Memory.read]
    · split
      · simp [Memory.read]
      · rename_i h
        simp [Memory.read, h, ih]

theorem Memory.read_write_other (m : Memory) {a c : Nat} (v : Sample) (h : c ≠ a) :
    Memory.read (Memory.write m a v) c = Memory.read m c := by
  induction m with
  | nil => simp [Memory.write, Memory.read, h]
  | cons d m ih =>
    obtain ⟨b, w⟩ := d
    simp only [Memory.write]
    split
    · simp [Memory.read, h]
    · split
      · rename_i hb
        simp [Memory.read, h, ← hb]
      · simp [Memory.read, ih]

theorem Memory.risingFrom_write {m : Memory} {lo a : Nat} (v : Sample) (hm : Memory.risingFrom lo m = true)
    (hlo : lo ≤ a) (ha : a < 4) : Memory.risingFrom lo (Memory.write m a v) = true := by
  induction m generalizing lo with
  | nil => simp [Memory.write, Memory.risingFrom, hlo, ha]
  | cons d m ih =>
    obtain ⟨b, w⟩ := d
    simp only [Memory.risingFrom, Bool.and_eq_true, decide_eq_true_eq] at hm
    simp only [Memory.write]
    split
    · rename_i hb
      simp [Memory.risingFrom, hlo, ha, hm.1.2, hm.2, Nat.succ_le_of_lt hb]
    · split
      · rename_i hb
        subst hb
        simp [Memory.risingFrom, hlo, ha, hm.2]
      · have h1 := ih hm.2 (by omega)
        simp [Memory.risingFrom, hm.1.1, hm.1.2, h1]

/-- A write at a slot address keeps the canonical form. -/
theorem Memory.wf_write {m : Memory} {a : Nat} (v : Sample) (hm : Memory.wf m = true) (ha : a < 4) :
    Memory.wf (Memory.write m a v) = true :=
  Memory.risingFrom_write v hm (Nat.zero_le a) ha

theorem Memory.wf_nil : Memory.wf [] = true := rfl

/-- The reset state's ring storage is canonical. -/
theorem reset_slots_wf : Memory.wf State.reset.slots = true := rfl

/-- After an ADD the slot at the write index holds the value. -/
theorem writeAdd_slot_same (v : Sample) (s s' : State) : (writeAdd v s s').slot s.widx = v := by
  simp [State.slot, Memory.read_write_same]

/-- An ADD leaves every other slot as it was. -/
theorem writeAdd_slot_other (v : Sample) (s s' : State) {i : SlotIdx} (h : i ≠ s.widx) :
    (writeAdd v s s').slot i = s'.slot i := by
  simp [State.slot, Memory.read_write_other _ v (fun e => h (BitVec.eq_of_toNat_eq e))]

/-- An ADD keeps the canonical form. -/
theorem writeAdd_wf (v : Sample) (s s' : State) (h : Memory.wf s'.slots = true) :
    Memory.wf (writeAdd v s s').slots = true :=
  Memory.wf_write v h s.widx.isLt

end Sys2Proof.Machine
end

