-- ==== Sys2Proof/Laws/Cycle.lean ====
section
/-! SUPPORT. What a step is, and everything phase A and phase B of a cycle can do. -/

namespace Sys2Proof.Machine

/-- A step always answers a next state: the reset state, or one cycle on the fetched word's fields. -/
theorem step_answers (s : State) :
    step s = .next (if rstIn (fetchWord s) then writeReset (takeWord s)
      else writeCycle (pinIn (fetchWord s)) (tickIn (fetchWord s)) (cmdIn (fetchWord s)) (takeWord s)) := rfl

/-- The one state a step can answer. -/
theorem step_inversion {s t : State} (h : step s = .next t) :
    (rstIn (fetchWord s) = true ∧ t = writeReset (takeWord s)) ∨
    (rstIn (fetchWord s) = false ∧
      t = writeCycle (pinIn (fetchWord s)) (tickIn (fetchWord s)) (cmdIn (fetchWord s)) (takeWord s)) := by
  rw [step_answers] at h
  cases h
  cases rstIn (fetchWord s) <;> simp

@[simp] theorem takeWord_rises (s : State) (pin : Bool) : (takeWord s).rises pin = s.rises pin := rfl

@[simp] theorem takeWord_falls (s : State) (pin : Bool) : (takeWord s).falls pin = s.falls pin := rfl

/-- A cycle is not both a RISE and a FALL. -/
theorem not_falls_of_rises {s : State} {pin : Bool} (h : s.rises pin = true) : s.falls pin = false := by
  unfold State.rises at h
  unfold State.falls
  cases pin <;> simp_all

/-- Everything phase A can do: RISE, FALL, TICK or HOLD, each under its condition, and TRACK. -/
theorem writeCapture_cases (pin tick : Bool) (s s' : State) :
    (s.rises pin = true ∧ writeCapture pin tick s s' = writeTrack pin (writeRise s')) ∨
    (s.falls pin = true ∧ writeCapture pin tick s s' = writeTrack pin (writeFall s s')) ∨
    (s.rises pin = false ∧ s.falls pin = false ∧ s.run = true ∧ tick = true ∧
      writeCapture pin tick s s' = writeTrack pin (writeTick s s')) ∨
    (s.rises pin = false ∧ s.falls pin = false ∧ (s.run = false ∨ tick = false) ∧
      writeCapture pin tick s s' = writeTrack pin s') := by
  unfold writeCapture eventVector State.rises State.falls
  cases s.irqEn <;> cases s.pinQ <;> cases pin <;> cases s.run <;> cases tick <;>
    first
      | exact .inl ⟨rfl, rfl⟩
      | exact .inr (.inl ⟨rfl, rfl⟩)
      | exact .inr (.inr (.inl ⟨rfl, rfl, rfl, rfl, rfl⟩))
      | exact .inr (.inr (.inr ⟨rfl, rfl, .inl rfl, rfl⟩))
      | exact .inr (.inr (.inr ⟨rfl, rfl, .inr rfl, rfl⟩))

/-- Every field after phase A. -/
theorem writeCapture_fields (pin tick : Bool) (s s' : State) :
    (writeCapture pin tick s s').irqEn = s'.irqEn ∧
    (writeCapture pin tick s s').run = (if s.rises pin then true else if s.falls pin then false else s'.run) ∧
    (writeCapture pin tick s s').cnt =
      (if s.rises pin then 0#8 else if s.falls pin then s'.cnt else if s.run && tick then s.cnt + 1#8 else s'.cnt) ∧
    (writeCapture pin tick s s').pinQ = pin ∧
    (writeCapture pin tick s s').slots =
      (if s.falls pin then Memory.write s'.slots s.widx.toNat s.cnt else s'.slots) ∧
    (writeCapture pin tick s s').widx = (if s.falls pin then s.widx + 1#2 else s'.widx) ∧
    (writeCapture pin tick s s').full = (if s.falls pin then fullAfterAdd s.widx s'.full else s'.full) ∧
    (writeCapture pin tick s s').snap = s'.snap ∧ (writeCapture pin tick s s').result = s'.result ∧
    (writeCapture pin tick s s').rvalid = s'.rvalid ∧ (writeCapture pin tick s s').inited = s'.inited ∧
    (writeCapture pin tick s s').reinit = s'.reinit ∧ (writeCapture pin tick s s').intOut = s'.intOut ∧
    (writeCapture pin tick s s').draw = s'.draw ∧ (writeCapture pin tick s s').stim = s'.stim ∧
    (writeCapture pin tick s s').cycle = s'.cycle := by
  rcases writeCapture_cases pin tick s s' with ⟨h, e⟩ | ⟨h, e⟩ | ⟨h, h2, h3, h4, e⟩ | ⟨h, h2, h3, e⟩ <;> rw [e]
  · simp [h, not_falls_of_rises h]
  · have hr : s.rises pin = false := by
      cases hc : s.rises pin with
      | false => rfl
      | true => rw [not_falls_of_rises hc] at h; cases h
    simp [h, hr]
  · simp [h, h2, h3, h4]
  · rcases h3 with h3 | h3 <;> simp [h, h2, h3]

/-- Everything phase B can do, by the command code. -/
theorem writeCommand_cases (cmd : BitVec 3) (s s' : State) :
    (cmd = 1#3 ∧ writeCommand cmd s s' = writeInit s s') ∨
    (cmd = 2#3 ∧ writeCommand cmd s s' = writeStop s') ∨
    (cmd = 3#3 ∧ writeCommand cmd s s' = writeGetValue s s') ∨
    (cmd = 4#3 ∧ writeCommand cmd s s' = writeGetMedian s s') ∨
    (cmd ≠ 1#3 ∧ cmd ≠ 2#3 ∧ cmd ≠ 3#3 ∧ cmd ≠ 4#3 ∧ writeCommand cmd s s' = writeNop s') := by
  have h : ∀ c : BitVec 3, c = 0#3 ∨ c = 1#3 ∨ c = 2#3 ∨ c = 3#3 ∨ c = 4#3 ∨ c = 5#3 ∨ c = 6#3 ∨ c = 7#3 := by decide
  rcases h cmd with rfl | rfl | rfl | rfl | rfl | rfl | rfl | rfl
  · exact .inr (.inr (.inr (.inr ⟨by decide, by decide, by decide, by decide, rfl⟩)))
  · exact .inl ⟨rfl, rfl⟩
  · exact .inr (.inl ⟨rfl, rfl⟩)
  · exact .inr (.inr (.inl ⟨rfl, rfl⟩))
  · exact .inr (.inr (.inr (.inl ⟨rfl, rfl⟩)))
  · exact .inr (.inr (.inr (.inr ⟨by decide, by decide, by decide, by decide, rfl⟩)))
  · exact .inr (.inr (.inr (.inr ⟨by decide, by decide, by decide, by decide, rfl⟩)))
  · exact .inr (.inr (.inr (.inr ⟨by decide, by decide, by decide, by decide, rfl⟩)))

/-- No command writes the ring, the pin register, or the model's counters. -/
theorem writeCommand_frame (cmd : BitVec 3) (s s' : State) :
    (writeCommand cmd s s').slots = s'.slots ∧ (writeCommand cmd s s').widx = s'.widx ∧
    (writeCommand cmd s s').full = s'.full ∧ (writeCommand cmd s s').pinQ = s'.pinQ ∧
    (writeCommand cmd s s').draw = s'.draw ∧ (writeCommand cmd s s').stim = s'.stim ∧
    (writeCommand cmd s s').cycle = s'.cycle ∧ (writeCommand cmd s s').intOut = s'.intOut := by
  rcases writeCommand_cases cmd s s' with ⟨-, h⟩ | ⟨-, h⟩ | ⟨-, h⟩ | ⟨-, h⟩ | ⟨-, -, -, -, h⟩ <;>
    rw [h] <;> simp [writeGetValue, writeGetMedian]

end Sys2Proof.Machine
end

