-- ==== Sys2Proof/Tests/Slice0.lean ====
section
/-! SUPPORT. The model's own tests: words written out from the encodings of 30_encoding.md, single steps of
95_test_vectors.md (named by its ids), and for every statement with hypotheses a state and operands that meet them. -/

namespace Sys2Proof.Tests

open Sys2Proof Sys2Proof.Machine

/-! ### Helpers -/

/-- The operation answers a next state of which `p` holds. -/
def after (o : Host.Outcome State Fault Refusal) (p : State → Bool) : Bool :=
  match o with
  | .next t => p t
  | .fault _ => false
  | .refused _ => false

/-- The ring storage with all four slots written. -/
def ring4 (a b c d : Sample) : Memory := [(0, a), (1, b), (2, c), (3, d)]

/-- A state with known `snap`, else that of reset. -/
def base : State := { State.reset with snap := #v[0, 0, 0, 0] }

/-- Events enabled, the pin low and the accumulator stopped (E1). -/
def low : State := { base with irqEn := true, inited := true, cnt := 37 }

/-- Measuring: events enabled, the pin high, the accumulator running (E3). -/
def high : State := { base with irqEn := true, inited := true, pinQ := true, run := true, cnt := 41 }

/-- A full ring holding 10, 50, 20, 40 (H7). -/
def filled : State := { base with slots := ring4 10 50 20 40, full := true }

/-- `s` with these words scheduled. -/
def sched (ws : List StimWord) (s : State) : State := { s with stim := ws }

/-! ### Well-formedness: an ill-formed term for each check -/

theorem test_wf_edge : (Instr.edge true).wellFormed = false := by decide
theorem test_wf_add : (Instr.add 5).wellFormed = false := by decide
theorem test_wf_isFull : Instr.isFull.wellFormed = false := by decide
theorem test_wf_elementAt : (Instr.elementAt 3).wellFormed = false := by decide
theorem test_wf_capacity : Instr.capacity.wellFormed = false := by decide
theorem test_wf_snapshot : Instr.snapshot.wellFormed = false := by decide
theorem test_wf_sort4 : (Instr.sort4 1 2 3 4).wellFormed = false := by decide
theorem test_wf_median4 : (Instr.median4 1 2 3 4).wellFormed = false := by decide
theorem test_wf_medianOrZero : Instr.medianOrZero.wellFormed = false := by decide
theorem test_wf_rebase : (Instr.rebase 5).wellFormed = false := by decide
theorem test_wf_line : (StimLine.cycles .reset false none none 1).wellFormed = false := by decide
theorem test_wf_line_ok : (StimLine.cycles .rsv6 false none none 1).wellFormed = true := by decide
theorem test_wf_width : Config.widthAdmitted 9 = false ∧ Config.widthAdmitted 0 = false ∧
    Config.widthAdmitted Config.tickWidth = true := by decide

/-! ### Decoding: one word per constructor that a word stands for, written out from R65, R68, R59, R75 and R72 -/

theorem test_decode_nop : decode .cmd 0b000 = .ok .nop := rfl
theorem test_decode_init : decode .cmd 0b001 = .ok .init := rfl
theorem test_decode_stop : decode .cmd 0b010 = .ok .stop := rfl
theorem test_decode_getValue : decode .cmd 0b011 = .ok .getValue := rfl
theorem test_decode_getMedian : decode .cmd 0b100 = .ok .getMedian := rfl
theorem test_decode_rsv5 : decode .cmd 0b101 = .ok .rsv5 := rfl
theorem test_decode_rsv6 : decode .cmd 0b110 = .ok .rsv6 := rfl
theorem test_decode_rsv7 : decode .cmd 0b111 = .ok .rsv7 := rfl
theorem test_decode_rise : decode .evt 0b10101 = .ok (.rise false true) := rfl
theorem test_decode_fall : decode .evt 0b11010 = .ok (.fall true false) := rfl
theorem test_decode_tickOff : decode .evt 0b01011 = .ok (.tickOff true false) := rfl
theorem test_decode_tickLow : decode .evt 0b10011 = .ok .tickLow := rfl
theorem test_decode_tickHigh : decode .evt 0b11111 = .ok .tickHigh := rfl
theorem test_decode_holdOffStopped : decode .evt 0b00101 = .ok (.holdOffStopped false true true) := rfl
theorem test_decode_holdOffRunning : decode .evt 0b01010 = .ok (.holdOffRunning true false) := rfl
theorem test_decode_holdLowStopped : decode .evt 0b10001 = .ok (.holdLowStopped true) := rfl
theorem test_decode_holdLowRunning : decode .evt 0b10010 = .ok .holdLowRunning := rfl
theorem test_decode_holdHighStopped : decode .evt 0b11101 = .ok (.holdHighStopped true) := rfl
theorem test_decode_holdHighRunning : decode .evt 0b11110 = .ok .holdHighRunning := rfl
theorem test_decode_reset : decode .rst 1 = .ok .reset := rfl
theorem test_decode_track : decode .always 0b00100 = .ok (.track true) := rfl
theorem test_decode_step : decode .stim 0x1A = .ok (.step false true true 2) := rfl

/-- The words of 95_test_vectors.md's table. -/
theorem test_decode_stim_words :
    decodeStim 0x20 = .step true false false 0 ∧ decodeStim 0x30 = .step true true false 0 ∧
    decodeStim 0x08 = .step false false true 0 ∧ decodeStim 0x10 = .step false true false 0 ∧
    decodeStim 0x19 = .step false true true 1 ∧ decodeStim 0x0C = .step false false true 4 := by decide

theorem test_decode_too_wide : decode .cmd 8 = .error .tooWide ∧ decode .evt 32 = .error .tooWide ∧
    decode .stim 64 = .error .tooWide ∧ decode .rst 2 = .error .tooWide := ⟨rfl, rfl, rfl, rfl⟩

theorem test_decode_internal : decode .int 0 = .error .internalOnly := rfl

theorem test_decode_reset_inactive : decode .rst 0 = .error .resetInactive := rfl

/-- mask and match of the EVT rows of opcode_table.json. -/
def evtRows : List (BitVec 5 × BitVec 5) :=
  [(28, 20), (28, 24), (19, 3), (31, 19), (31, 31), (18, 0), (19, 2), (30, 16), (31, 18), (30, 28), (31, 30)]

/-- No two event rows overlap. -/
theorem test_rows_disjoint :
    evtRows.Pairwise fun a b => a.2 &&& b.1 ≠ b.2 &&& a.1 := by decide

/-- Every event vector matches exactly one row (R68). -/
theorem test_rows_cover : ∀ v : BitVec 5, (evtRows.filter fun r => v &&& r.1 == r.2).length = 1 := by decide

/-- Which of RISE, FALL, TICK, HOLD (as 'R', 'F', 'T', 'H') an event vector's operation is. -/
def opLetter (i : Instr) : Char :=
  match i with
  | .rise _ _ => 'R'
  | .fall _ _ => 'F'
  | .tickOff _ _ => 'T'
  | .tickLow => 'T'
  | .tickHigh => 'T'
  | _ => 'H'

/-- The table of all 32 event vectors, 95_test_vectors.md part 2.1. -/
theorem test_event_table : (List.range 32).map (fun n => opLetter (decodeEvent (BitVec.ofNat 5 n))) =
    ['H', 'H', 'H', 'T', 'H', 'H', 'H', 'T', 'H', 'H', 'H', 'T', 'H', 'H', 'H', 'T'] ++
    ['H', 'H', 'H', 'T', 'R', 'R', 'R', 'R', 'F', 'F', 'F', 'F', 'H', 'H', 'H', 'T'] := by decide

/-- Table words by exact width, and given as whole bytes (log entry 9). -/
theorem test_table_words : decodeTableWord 3 4 = some .getMedian ∧ decodeTableWord 5 19 = some .tickLow ∧
    decodeTableWord 1 1 = some .reset ∧ decodeTableWord 8 4 = some .getMedian ∧
    decodeTableWord 8 24 = some (.fall false false) ∧ decodeTableWord 8 32 = none ∧ decodeTableWord 16 0 = none :=
  ⟨rfl, rfl, rfl, rfl, rfl, rfl, rfl⟩

/-- P14: RESET, INIT, PULSE 0. -/
theorem test_assemble_p14 :
    assemble [.reset, .cycles .init false (some false) (some false) 1, .pulse 0] =
      some [0x20, 0x01, 0x18, 0x08, 0x08] := by decide

/-- An omitted pin or tick repeats the line before (R73); a line that names no command has no words. -/
theorem test_assemble_repeats :
    assemble [.cycles .stop false (some true) (some true) 1, .cycles .nop false none none 2, .idle 1] =
      some [0x1A, 0x18, 0x18, 0x00] ∧ assemble [.cycles .reset false none none 1] = none := by decide

/-! ### The capture machine, 95_test_vectors.md part 2.2 -/

theorem test_e1_rise : after (exec (.step false true true 0) low) (fun t => t.pinQ && t.run && t.cnt == 0) = true := by
  decide
theorem test_e10_rise : after (exec (.rise true false) { low with run := true, cnt := 12 })
    (fun t => t.run && t.cnt == 0 && t.widx == 0 && t.slots == []) = true := by decide
theorem test_e3_tick : after (exec (.step false true true 0) high) (fun t => t.cnt == 42) = true := by decide
theorem test_e5_tick_wraps : after (exec .tickHigh { high with cnt := 255 }) (fun t => t.cnt == 0) = true := by decide
theorem test_tick_low : after (exec .tickLow { low with run := true }) (fun t => t.cnt == 38) = true := by decide
theorem test_tick_off : after (exec (.tickOff false true) { base with run := true, cnt := 255 })
    (fun t => t.cnt == 0 && t.run) = true := by decide
theorem test_e4_hold : after (exec (.step false true false 0) high) (fun t => t.cnt == 41 && t.run) = true := by decide
theorem test_e6_fall : after (exec (.step false false true 0) { high with cnt := 150, widx := 2 })
    (fun t => !t.pinQ && !t.run && t.cnt == 150 && t.slot 2 == 150 && t.widx == 3 && !t.full) = true := by decide
theorem test_e7_fall_sets_full : after (exec (.fall true false) { high with cnt := 9, widx := 3 })
    (fun t => !t.run && t.cnt == 9 && t.slot 3 == 9 && t.widx == 0 && t.full) = true := by decide
theorem test_e11_disabled : after (exec (.step false true true 0) { base with cnt := 5, widx := 1 })
    (fun t => t.pinQ && !t.run && t.cnt == 5 && t.widx == 1) = true := by decide
theorem test_e12_disabled : after (exec (.step false false true 0) { base with pinQ := true, cnt := 5, widx := 1 })
    (fun t => !t.pinQ && t.cnt == 5 && t.widx == 1 && t.slots == []) = true := by decide
theorem test_e13_hold : after (exec (.step false false true 0) { low with cnt := 150 })
    (fun t => t.cnt == 150) = true := by decide
theorem test_track : after (exec (.track true) base) (fun t => t.pinQ) = true := by decide
theorem test_edge : after (exec (.edge true) low) (fun t => t.intOut == .bit true) = true := by decide
theorem test_edge_disabled : after (exec (.edge true) base) (fun t => t.intOut == .bit false) = true := by decide

/-! ### The ring buffer, part 2.3 -/

theorem test_a4_add : after (exec (.add 4) { base with slots := [(0, 1), (1, 2), (2, 3)], widx := 3 })
    (fun t => t.slots == ring4 1 2 3 4 && t.widx == 0 && t.full) = true := by decide
theorem test_a5_add : after (exec (.add 5) { base with slots := ring4 1 2 3 4, full := true })
    (fun t => t.slots == ring4 5 2 3 4 && t.widx == 1 && t.full) = true := by decide
theorem test_isFull : after (exec .isFull { base with widx := 3 }) (fun t => t.intOut == .bit false) = true := by decide
theorem test_elementAt : after (exec (.elementAt 3) { base with slots := ring4 5 2 3 4, full := true })
    (fun t => t.intOut == .sample 4) = true := by decide
theorem test_capacity : after (exec .capacity base) (fun t => t.intOut == .count 4) = true := by decide

/-! ### The median, part 2.4 -/

theorem test_m1_sort : after (exec (.sort4 10 50 20 40) base) (fun t => t.intOut == .four #v[10, 20, 40, 50]) = true := by
  decide
theorem test_m5_sort_ties : after (exec (.sort4 5 5 1 1) base) (fun t => t.intOut == .four #v[1, 1, 5, 5]) = true := by
  decide
theorem test_m3_upper : after (exec (.median4 4 3 2 1) base) (fun t => t.intOut == .sample 3) = true := by decide
theorem test_m9_two_outliers : median4 30 255 30 255 = 255 := by decide
theorem test_snapshot : after (exec .snapshot filled)
    (fun t => t.snap == #v[10, 50, 20, 40] && t.intOut == .four #v[10, 50, 20, 40]) = true := by decide
theorem test_medianOrZero : after (exec .medianOrZero { base with slots := ring4 5 2 3 4, full := true })
    (fun t => t.intOut == .sample 4 && t.snap == #v[5, 2, 3, 4]) = true := by decide
theorem test_medianOrZero_not_full : after (exec .medianOrZero { base with slots := [(0, 255)], widx := 1 })
    (fun t => t.intOut == .sample 0 && t.snap == #v[0, 0, 0, 0]) = true := by decide
theorem test_h7_getMedian : after (exec .getMedian filled)
    (fun t => t.result == 40 && t.rvalid && t.snap == #v[10, 50, 20, 40]) = true := by decide

/-! ### REBASE and the commands, part 2.5 -/

theorem test_rebase_b1_b4 : rebaseBy 125 150 = 25 ∧ rebaseBy 125 125 = 0 ∧ rebaseBy 125 126 = 1 ∧
    rebaseBy 125 124 = 0 := by decide
theorem test_rebase_b6_b9 : rebaseBy 125 255 = 130 ∧ rebaseBy 0 200 = 200 ∧ rebaseBy 255 255 = 0 ∧
    rebaseBy 255 254 = 0 := by decide
theorem test_h1_init : after (exec .init base)
    (fun t => t.irqEn && !t.run && t.cnt == 0 && t.inited && !t.rvalid && !t.reinit) = true := by decide
theorem test_x5_second_init : after (exec (.step false false false 1) { high with cnt := 30, widx := 2 })
    (fun t => t.irqEn && !t.run && t.cnt == 0 && t.slot 2 == 30 && t.widx == 3 && !t.pinQ && t.reinit) = true := by
  decide
theorem test_h2_stop : after (exec (.step false true true 2) { high with cnt := 4 })
    (fun t => !t.irqEn && !t.run && t.cnt == 5 && t.pinQ) = true := by decide
theorem test_h3_stop : after (exec .stop { filled with irqEn := true, cnt := 40 })
    (fun t => !t.irqEn && t.cnt == 40 && t.full && t.slots == ring4 10 50 20 40) = true := by decide
theorem test_h6_getValue_not_full : after (exec .getValue { base with slots := [(0, 255)], widx := 1, result := 9 })
    (fun t => t.rvalid && t.snap == #v[0, 0, 0, 0]) = true := by decide
theorem test_getValue_full : after (exec .getValue filled)
    (fun t => t.rvalid && t.snap == #v[10, 50, 20, 40] && !t.irqEn) = true := by decide
theorem test_h8_nop : after (exec .nop { base with result := 40, rvalid := true })
    (fun t => t.result == 40 && !t.rvalid) = true := by decide
theorem test_h9_rsv7 : after (exec .rsv7 { base with result := 25, rvalid := true })
    (fun t => t.result == 25 && !t.rvalid) = true := by decide
theorem test_h10_rsv5 : after (exec .rsv5 { base with result := 25, rvalid := true })
    (fun t => t.result == 25 && !t.rvalid) = true := by decide
theorem test_h10_rsv6 : after (exec .rsv6 { base with result := 25, rvalid := true })
    (fun t => t.result == 25 && !t.rvalid) = true := by decide

/-! ### Same-cycle cases, part 2.6, and the step -/

theorem test_x1_read_in_push : after (exec (.step false false false 4)
      { high with cnt := 9, slots := ring4 1 2 3 4, full := true })
    (fun t => t.slots == ring4 9 2 3 4 && t.widx == 1 && t.snap == #v[1, 2, 3, 4] && t.result == 3 && t.rvalid &&
      !t.run) = true := by decide
theorem test_x2_read_in_fourth_push : after (exec (.step false false false 4)
      { high with cnt := 7, slots := [(0, 7), (1, 7), (2, 7)], widx := 3, result := 5 })
    (fun t => t.slots == ring4 7 7 7 7 && t.widx == 0 && t.full && t.result == 0 && t.rvalid &&
      t.snap == #v[0, 0, 0, 0]) = true := by decide
theorem test_x3_stop_in_fall : after (exec (.step false false false 2) { high with cnt := 7, widx := 1 })
    (fun t => !t.irqEn && !t.run && t.cnt == 7 && t.slot 1 == 7 && t.widx == 2 && !t.pinQ) = true := by decide
theorem test_x7_reset : after (exec (.step true true true 1) { filled with irqEn := true, inited := true })
    (fun t => !t.irqEn && !t.inited && !t.full && t.widx == 0 && !t.pinQ) = true := by decide
theorem test_reset : after (exec .reset { high with full := true, result := 3, rvalid := true })
    (fun t => !t.irqEn && !t.run && t.cnt == 0 && !t.full && t.result == 0 && !t.rvalid && !t.inited) = true := by
  decide
theorem test_x8_init_pin_high : after (step (sched [0x11] base))
    (fun t => t.irqEn && t.pinQ && !t.run && t.inited && t.stim == []) = true := by decide
theorem test_free_input : step State.reset =
    exec (decodeStim (Config.freeInput 0)) { State.reset with cycle := 1 } := rfl
theorem test_placed_command : after (step (State.reset.withFetchWord 3 1)) (fun t => t.irqEn && t.inited) = true := by
  decide
theorem test_placed_event : after (step (State.reset.withFetchWord 5 0b11011)) (fun t => t.widx == 1 && !t.pinQ) =
    true := by decide

/-! ### Witnesses: for each statement with hypotheses, a state and operands that meet them, clause by clause -/

theorem test_witness_EncodeThenDecodeGivesTheOperation :
    (Instr.step true true true 7).wellFormed = true ∧ (Instr.holdHighRunning).wellFormed = true := by decide

theorem test_witness_DecodeThenEncodeGivesTheWord :
    (Format.stim ≠ .always ∧ decode .stim 63 = .ok (.step true true true 7)) ∧
    (Format.evt ≠ .always ∧ decode .evt 31 = .ok .tickHigh) ∧
    (Format.cmd ≠ .always ∧ decode .cmd 7 = .ok .rsv7) ∧ (Format.rst ≠ .always ∧ decode .rst 1 = .ok .reset) :=
  ⟨⟨by decide, rfl⟩, ⟨by decide, rfl⟩, ⟨by decide, rfl⟩, by decide, rfl⟩

theorem test_witness_DecodedOperationsAreWellFormed :
    decode .always 31 = .ok (.track true) ∧ decode .stim 0 = .ok (.step false false false 0) := ⟨rfl, rfl⟩

theorem test_witness_DecoderRejectsByName :
    decode .int 255 = .error .internalOnly ∧ decode .always 32 = .error .tooWide ∧
    decode .rst 2 = .error .tooWide ∧ decode .rst 0 = .error .resetInactive := ⟨rfl, rfl, rfl, rfl⟩

theorem test_witness_EventPatternsSelectTheirOperation :
    (true = true ∧ true ≠ false ∧ true = true) ∧ (true = true ∧ false ≠ true ∧ false = false) ∧
    (¬(false = true ∧ true ≠ false) ∧ true = true ∧ true = true) ∧
    (¬(true = true ∧ true ≠ true) ∧ ¬(true = true ∧ false = true)) := by decide

theorem test_witness_ReservedCodesActAsNop :
    ((5#3 = 5#3 ∨ 5#3 = 6#3 ∨ 5#3 = 7#3) ∧ (7#3 = 5#3 ∨ 7#3 = 6#3 ∨ 7#3 = 7#3)) ∧
    (31#8).toNat < 32 ∧ (0#8).toNat < 32 := by decide

theorem test_witness_EdgeIsAnEnabledChange :
    base.irqEn = false ∧ false = low.pinQ ∧ true = high.pinQ ∧ low.irqEn = true ∧ high.irqEn = true := by decide

theorem test_witness_PinLevelAloneChoosesTheAction :
    (edgeBit low.irqEn low.pinQ true = true ∧ true = true) ∧
    (edgeBit high.irqEn high.pinQ false = true ∧ false = false) := by decide

theorem test_witness_RiseZeroesAndStarts : low.rises true = true ∧ { low with cnt := 255 }.rises true = true ∧
    { low with run := true }.rises true = true := by decide

theorem test_witness_FallStopsAndPushesTheCount : high.falls false = true ∧
    { high with widx := 3, cnt := 255 }.falls false = true ∧ { high with run := false }.falls false = true ∧
    (2 : SlotIdx) ≠ { high with widx := 3 }.widx := by decide

theorem test_witness_TickCountsModulo256 :
    ({ high with cnt := 255 }).cnt = 255#8 ∧ edgeBit high.irqEn high.pinQ true = false ∧
    edgeBit base.irqEn base.pinQ true = false := by decide

theorem test_witness_HoldWritesNothing :
    (edgeBit low.irqEn low.pinQ false = false ∧ (low.run = false ∨ true = false)) ∧
    (edgeBit high.irqEn high.pinQ true = false ∧ (high.run = false ∨ false = false)) := by decide

theorem test_witness_EdgeEventDropsTheTick :
    (edgeBit low.irqEn low.pinQ true = true ∧ true = true) ∧
    (edgeBit high.irqEn high.pinQ false = true ∧ false = false ∧ (0#3) ≠ 1#3) := by decide

theorem test_witness_DisabledPinChangeLeavesNoTrace : base.irqEn = false ∧ filled.irqEn = false := by decide

theorem test_witness_AddStoresAtTheWriteIndex :
    (3 : SlotIdx) ≠ base.widx ∧ { base with widx := 3 }.widx = 3#2 ∧ { base with widx := 2 }.widx ≠ 3#2 := by decide

theorem test_witness_OnlyRingWritersTouchTheRing :
    ∃ t, leavesRing .getValue = true ∧ exec .getValue filled = .next t := ⟨_, rfl, rfl⟩

theorem test_witness_CycleWithoutFallKeepsTheRing : low.falls true = false ∧ high.falls true = false ∧
    base.falls false = false := by decide

theorem test_witness_FullIsStickyUntilReset :
    (∃ t, step (sched [0x20] filled) = .next t ∧ rstIn (fetchWord (sched [0x20] filled)) = true) ∧
    ∃ t, step (sched [0x08] { high with widx := 3 }) = .next t ∧
      rstIn (fetchWord (sched [0x08] { high with widx := 3 })) = false := ⟨⟨_, rfl, rfl⟩, _, rfl, rfl⟩

theorem test_witness_Sort4GivesTheSortedMultiset : SortedFormOf #v[1, 1, 5, 5] 5 5 1 1 ∧
    SortedFormOf #v[0, 0, 0, 255] 0 255 0 0 := by decide

theorem test_witness_Median4IsTheUpperMedian : SortedFormOf #v[10, 20, 40, 50] 10 50 20 40 ∧
    SortedFormOf #v[7, 7, 7, 7] 7 7 7 7 := by decide

theorem test_witness_Median4RejectsOneOutlier :
    [(30 : Sample), 255, 30, 30].Perm [30, 30, 30, 255] ∧
    (SortedFormOf #v[1, 2, 3, 4] 4 3 2 1 ∧ (1 : Sample).toNat ≤ (#v[(1 : Sample), 2, 3, 4])[0].toNat) ∧
    (SortedFormOf #v[1, 2, 3, 4] 4 3 2 1 ∧ (#v[(1 : Sample), 2, 3, 4])[3].toNat ≤ (255 : Sample).toNat) := by decide

theorem test_witness_MedianOrZeroFoldsNotReadyIntoZero : base.full = false ∧ filled.full = true := by decide

theorem test_witness_GetMedianReturnsTheRawMedian : base.full = false ∧ filled.full = true := by decide

theorem test_witness_GetValueReturnsTheRebasedMedian : base.full = false ∧ filled.full = true := by decide

theorem test_witness_SnapshotIsAtomic :
    ((3#3 = 3#3 ∨ 3#3 = 4#3) ∧ filled.full = true) ∧
    ((4#3 = 3#3 ∨ 4#3 = 4#3) ∧ { high with slots := ring4 1 2 3 4, full := true }.full = true) := by decide

theorem test_witness_SecondInitMarksTheRun :
    ∃ t, step (sched [0x01] low) = .next t ∧ rstIn (fetchWord (sched [0x01] low)) = false ∧
      cmdIn (fetchWord (sched [0x01] low)) = 1#3 ∧ (sched [0x01] low).inited = true := ⟨_, rfl, rfl, rfl, rfl⟩

theorem test_witness_StopDisablesAndHalts : edgeBit high.irqEn high.pinQ true = false ∧ high.run = true := by decide

theorem test_witness_RebaseIsMonotonic :
    ((124 : Sample).toNat ≤ (125 : Sample).toNat) ∧
    ((125 : Sample).toNat < (126 : Sample).toNat ∧ (126 : Sample).toNat < (255 : Sample).toNat) := by decide

theorem test_witness_ReadCommandsDisturbNothing : (3#3 = 3#3 ∨ 3#3 = 4#3) ∧ (4#3 = 3#3 ∨ 4#3 = 4#3) := by decide

theorem test_witness_ResultIsHeldBetweenReads : 3#3 = 3#3 ∧ 4#3 = 4#3 ∧ (7#3 ≠ 3#3 ∧ 7#3 ≠ 4#3) ∧ (2#3 ≠ 3#3 ∧ 2#3 ≠ 4#3) := by
  decide

theorem test_witness_OutputsShowTheResultOneCycleLater :
    (∃ t, step (sched [0x0B] filled) = .next t ∧ rstIn (fetchWord (sched [0x0B] filled)) = false ∧
      cmdIn (fetchWord (sched [0x0B] filled)) = 3#3) ∧
    (∃ t, step (sched [0x0C] filled) = .next t ∧ rstIn (fetchWord (sched [0x0C] filled)) = false ∧
      cmdIn (fetchWord (sched [0x0C] filled)) = 4#3) ∧
    ∃ t, step (sched [0x05] filled) = .next t ∧ rstIn (fetchWord (sched [0x05] filled)) = false ∧
      cmdIn (fetchWord (sched [0x05] filled)) ≠ 3#3 ∧ cmdIn (fetchWord (sched [0x05] filled)) ≠ 4#3 :=
  ⟨⟨_, rfl, rfl, rfl⟩, ⟨_, rfl, rfl, rfl⟩, _, rfl, rfl, by decide, by decide⟩

theorem test_witness_ResetDrawsTheUnspecifiedContentsAfresh :
    ∃ t, step (sched [0x30, 0x19] filled) = .next t ∧ rstIn (fetchWord (sched [0x30, 0x19] filled)) = true :=
  ⟨_, rfl, rfl⟩

theorem test_witness_CycleRunsTheSelectedOperations :
    ∃ a b t, exec (decodeEvent (eventVector high false true)) high = .next a ∧
      exec (decodeCmd 2) high = .next b ∧ exec (.step false false true 2) high = .next t := ⟨_, _, _, rfl, rfl, rfl⟩

theorem test_witness_ReadInAPushCycleSeesTheOlderRing :
    (high.falls false = true ∧ (3#3 = 3#3 ∨ 3#3 = 4#3) ∧ high.full = false) ∧
    ({ high with slots := ring4 1 2 3 4, full := true }.falls false = true ∧ (4#3 = 3#3 ∨ 4#3 = 4#3) ∧
      { high with slots := ring4 1 2 3 4, full := true }.full = true) ∧
    (2 : SlotIdx) ≠ high.widx := by decide

theorem test_witness_StopDoesNotCancelTheEvent :
    high.falls false = true ∧ low.rises true = true ∧ (edgeBit high.irqEn high.pinQ true = false ∧ high.run = true) := by
  decide

theorem test_witness_InitOverridesTheCaptureMachine :
    base.irqEn = false ∧ high.falls false = true ∧ low.falls true = false := by decide

theorem test_witness_StepRunsTheFetchedWord :
    (sched [0x1A, 0x08] high).stim = stimWord false true true 2 :: [0x08] ∧ base.stim = [] := by decide

theorem test_witness_StepKeepsRunningMeansHigh :
    ∃ t, RunningMeansHigh (sched [0x1A] high) ∧ high.run = true ∧ step (sched [0x1A] high) = .next t :=
  ⟨_, fun _ => ⟨rfl, rfl⟩, rfl, rfl⟩

theorem test_witness_StepKeepsIdleHighHoldsZero :
    (∃ t, IdleHighHoldsZero (sched [0x19] { high with run := false, cnt := 0 }) ∧
      step (sched [0x19] { high with run := false, cnt := 0 }) = .next t) ∧
    (IdleHighHoldsZero { high with run := false, cnt := 0 } ∧ { high with run := false, cnt := 0 }.falls false = true ∧
      { high with run := false, cnt := 0 }.run = false) :=
  ⟨⟨_, fun _ _ _ => rfl, rfl⟩, fun _ _ _ => rfl, rfl, rfl⟩

/-- Three slots written and the fourth push to come. -/
def nearlyFull : State := { high with slots := [(0, 1), (1, 2), (2, 3)], widx := 3, stim := [0x08] }

theorem test_witness_StepKeepsTheRingShape :
    (∃ t, RingShape nearlyFull ∧ step nearlyFull = .next t) ∧ RingShape filled ∧ RingShape base :=
  ⟨⟨_, by decide, rfl⟩, by decide, by decide⟩

theorem test_witness_MemoryStaysCanonical :
    (∃ t, Memory.wf { filled with widx := 3 }.slots = true ∧ exec (.add 255) { filled with widx := 3 } = .next t) ∧
    ∃ t, Memory.wf nearlyFull.slots = true ∧ step nearlyFull = .next t := ⟨⟨_, by decide, rfl⟩, _, by decide, rfl⟩

theorem test_witness_WidxAndFullCountThePushes :
    (∃ t, RingCount 3 nearlyFull ∧ step nearlyFull = .next t) ∧
    ∃ t, RingCount 4 (sched [0x00] filled) ∧ step (sched [0x00] filled) = .next t :=
  ⟨⟨_, by decide, rfl⟩, _, by decide, rfl⟩

theorem test_witness_RingHoldsTheMostRecentSamples :
    ∃ t, HoldsHistory [3, 2, 1] nearlyFull ∧ step nearlyFull = .next t := by
  refine ⟨_, ⟨by decide, fun j hj _ => ?_⟩, rfl⟩
  have h : j = 0 ∨ j = 1 ∨ j = 2 := by
    simp only [List.length_cons, List.length_nil] at hj
    omega
  rcases h with rfl | rfl | rfl <;> rfl

/-- Two states that differ in `snap` and in a slot not yet written. -/
theorem test_witness_NoOutputDependsOnResetContents :
    ∃ t, SameButResetContents nearlyFull { nearlyFull with snap := #v[1, 2, 3, 4], draw := 7 } ∧
      step nearlyFull = .next t :=
  ⟨_, ⟨rfl, rfl, rfl, rfl, rfl, rfl, by
    intro i hi
    have h : ∀ x : SlotIdx, x = 0#2 ∨ x = 1#2 ∨ x = 2#2 ∨ x = 3#2 := by decide
    rcases h i with rfl | rfl | rfl | rfl
    · rfl
    · rfl
    · rfl
    · exact absurd hi (by decide), rfl, rfl, rfl, rfl, rfl⟩, rfl⟩

theorem test_witness_SampleCountsTheTicksBetweenTheEdges :
    (sched [0x18, 0x10, 0x18, 0x0C, 0x00] low).irqEn = true ∧
    (sched [0x18, 0x10, 0x18, 0x0C, 0x00] low).pinQ = false ∧ HighCycle 0x18 ∧
    (∀ m ∈ [(0x10 : StimWord), 0x18], HighCycle m) ∧ LowCycle 0x0C ∧
    (sched [0x18, 0x10, 0x18, 0x0C, 0x00] low).stim = 0x18 :: ([0x10, 0x18] ++ 0x0C :: [0x00]) := by decide

/-- The words of `PULSE 1` and a pulse of no tick. -/
theorem pulse_words : IsPulse 1 [0x18, 0x18, 0x08, 0x08] ∧ IsPulse 0 [0x18, 0x00] :=
  ⟨⟨0x18, [0x18], 0x08, [0x08], rfl, by decide, by decide, by decide, by decide, by decide⟩,
    0x18, [], 0x00, [], rfl, by decide, by decide, by decide, by decide, by decide⟩

theorem test_witness_FourEqualPulsesRoundTrip :
    1 < 256 ∧ low.irqEn = true ∧ low.pinQ = false ∧ IsPulse 1 [0x18, 0x18, 0x08, 0x08] ∧
    rstIn 0x0B = false ∧ cmdIn 0x0B = 3#3 ∧
    (sched (([0x18, 0x18, 0x08, 0x08] ++ [0x18, 0x18, 0x08, 0x08]) ++ [0x18, 0x18, 0x08, 0x08] ++
      [0x18, 0x18, 0x08, 0x08] ++ 0x0B :: [0x00]) low).stim =
      [0x18, 0x18, 0x08, 0x08] ++ [0x18, 0x18, 0x08, 0x08] ++ [0x18, 0x18, 0x08, 0x08] ++
        [0x18, 0x18, 0x08, 0x08] ++ 0x0B :: [0x00] :=
  ⟨by decide, rfl, rfl, pulse_words.1, by decide, by decide, rfl⟩

end Sys2Proof.Tests
end

section
/-! PROOF. Totality (00_scope.md R16): no operation and no step faults or refuses. -/

namespace Sys2Proof.Machine

/-- Every arm of `exec` wraps one register transfer in `.next`, and none looks at the state before it does. -/
theorem exec_answers (i : Instr) (s : State) : ∃ t, exec i s = .next t := by
  cases i <;> exact ⟨_, rfl⟩

/-- Settles O48: a step by the one state `step_answers` names, an operation by its arm of `exec`. -/
theorem everyOperationIsTotal : Obligations.EveryOperationIsTotal :=
  ⟨fun s => ⟨_, step_answers s⟩, exec_answers⟩

end Sys2Proof.Machine
end

section
/-! PROOF. RESET (10_state.md R36, 44_cycle_step.md R123): alone and as a reset cycle it is the one register transfer
`writeReset`, which leaves the reset values. -/

namespace Sys2Proof.Machine

theorem isResetState_reset : IsResetState State.reset :=
  ⟨rfl, rfl, rfl, rfl, rfl, rfl, rfl, rfl, rfl⟩

theorem isResetState_writeReset (s : State) : IsResetState (writeReset s) :=
  ⟨writeReset_irqEn s, writeReset_run s, writeReset_cnt s, writeReset_pinQ s, writeReset_widx s, writeReset_full s,
    writeReset_result s, writeReset_rvalid s, writeReset_inited s⟩

/-- RESET's arm of `exec`. -/
theorem exec_reset (s : State) : exec .reset s = .next (writeReset s) := rfl

/-- STEP's arm of `exec` in a reset cycle: the pin, the tick and the command do not enter it. -/
theorem exec_step_reset (s : State) (pin tick : Bool) (cmd : BitVec 3) :
    exec (.step true pin tick cmd) s = .next (writeReset s) := rfl

/-- Settles O40: RESET and a reset cycle both answer `writeReset s`. -/
theorem resetLeavesTheResetState : Obligations.ResetLeavesTheResetState :=
  ⟨isResetState_reset, fun s => ⟨writeReset s, exec_reset s, isResetState_writeReset s, exec_step_reset s⟩⟩

end Sys2Proof.Machine
end

section
/-! PROOF. The snapshot of a read command (20_memory.md R50): phase B copies the slots of the cycle's pre-state, and
takes nothing from the state phase A leaves, in which a push may have written a slot. -/

namespace Sys2Proof.Machine

/-- STEP's arm of `exec` in a cycle without reset. -/
theorem exec_step_cycle (s : State) (pin tick : Bool) (cmd : BitVec 3) :
    exec (.step false pin tick cmd) s = .next (writeCycle pin tick cmd s) := rfl

@[simp] theorem writeGetValue_snap (s s' : State) :
    (writeGetValue s s').snap = if s.full then snapshotOf s else s'.snap :=
  writeMedianOrZero_snap s s'

@[simp] theorem writeGetMedian_snap (s s' : State) :
    (writeGetMedian s s').snap = if s.full then snapshotOf s else s'.snap :=
  writeMedianOrZero_snap s s'

/-- Both read commands snapshot the pre-state `s` and not `s'`, the state written so far in the cycle. -/
theorem writeCommand_snap_of_read {cmd : BitVec 3} (h : cmd = 3#3 ∨ cmd = 4#3) (s s' : State) :
    (writeCommand cmd s s').snap = if s.full then snapshotOf s else s'.snap := by
  rcases h with rfl | rfl
  · exact writeGetValue_snap s s'
  · exact writeGetMedian_snap s s'

/-- Settles O29: phase A enters the cycle's `snap` only when the ring has not been filled. -/
theorem snapshotIsAtomic : Obligations.SnapshotIsAtomic := by
  intro s pin tick cmd hcmd hfull
  have hsnap : (writeCycle pin tick cmd s).snap = snapshotOf s := by
    rw [writeCycle, writeCommand_snap_of_read hcmd, if_pos hfull]
  refine ⟨writeCycle pin tick cmd s, exec_step_cycle s pin tick cmd, ?_⟩
  rw [hsnap]
  exact ⟨rfl, rfl, rfl, rfl⟩

end Sys2Proof.Machine
end

section
/-! PROOF. The command codes (30_encoding.md R65) and the reserved ones among them (R66, R119), which are NOP. -/

namespace Sys2Proof.Machine

/-- A code of three bits is never too wide for format CMD. -/
theorem decode_cmd_of_lt {b : BitVec 8} (h : b.toNat < 8) : decode .cmd b = .ok (decodeCmd (b.setWidth 3)) :=
  if_pos h

/-- A vector of five bits is never too wide for format EVT, and each selects an operation. -/
theorem decode_evt_of_lt {b : BitVec 8} (h : b.toNat < 32) : decode .evt b = .ok (decodeEvent (b.setWidth 5)) :=
  if_pos h

/-- Settles O1: the eight codes, each read by `decodeCmd`. -/
theorem commandCodesSelectTheirCommand : Obligations.CommandCodesSelectTheirCommand :=
  ⟨decode_cmd_of_lt (by decide), decode_cmd_of_lt (by decide), decode_cmd_of_lt (by decide),
    decode_cmd_of_lt (by decide), decode_cmd_of_lt (by decide), decode_cmd_of_lt (by decide),
    decode_cmd_of_lt (by decide), decode_cmd_of_lt (by decide)⟩

/-- NOP's arm of `exec`. -/
theorem exec_nop (s : State) : exec .nop s = .next { s with rvalid := false } := rfl

/-- The reserved operations' arms of `exec` are NOP's (R119). -/
theorem exec_reserved_eq_nop (s : State) :
    exec .rsv5 s = exec .nop s ∧ exec .rsv6 s = exec .nop s ∧ exec .rsv7 s = exec .nop s :=
  ⟨rfl, rfl, rfl⟩

/-- In phase B a reserved code writes what code 000 writes. -/
theorem writeCommand_of_reserved {cmd : BitVec 3} (h : cmd = 5#3 ∨ cmd = 6#3 ∨ cmd = 7#3) (s s' : State) :
    writeCommand cmd s s' = writeCommand 0#3 s s' := by
  rcases h with rfl | rfl | rfl <;> rfl

/-- Settles O7: a reserved operation has NOP's arm alone and NOP's writes in phase B. -/
theorem reservedCodesActAsNop : Obligations.ReservedCodesActAsNop := by
  obtain ⟨-, -, -, -, -, hcodes⟩ := commandCodesSelectTheirCommand
  refine ⟨hcodes, fun s => ?_, fun s pin tick cmd hcmd => ?_, fun b hb => ⟨_, decode_evt_of_lt hb⟩⟩
  · obtain ⟨h5, h6, h7⟩ := exec_reserved_eq_nop s
    have hnop := exec_nop s
    exact ⟨h5.trans hnop, h6.trans hnop, h7.trans hnop, h5, h6, h7⟩
  · rw [exec_step_cycle, exec_step_cycle, writeCycle, writeCycle, writeCommand_of_reserved hcmd]

end Sys2Proof.Machine
end

section
/-! PROOF. The event vector (30_encoding.md R64) and the eleven patterns over it (R68). -/

namespace Sys2Proof.Machine

/-- The five signals stand in the vector's bits 4 down to 0 (R64). -/
theorem eventWord_bits (irqEn pinQ pin run tick : Bool) :
    (eventWord irqEn pinQ pin run tick)[4] = irqEn ∧ (eventWord irqEn pinQ pin run tick)[3] = pinQ ∧
    (eventWord irqEn pinQ pin run tick)[2] = pin ∧ (eventWord irqEn pinQ pin run tick)[1] = run ∧
    (eventWord irqEn pinQ pin run tick)[0] = tick := by
  revert irqEn pinQ pin run tick
  decide

/-- Every vector is assembled from its own bits. -/
theorem eq_eventWord_bits (v : BitVec 5) : v = eventWord v[4] v[3] v[2] v[1] v[0] := by
  obtain ⟨h4, h3, h2, h1, h0⟩ := eventWord_bits v[4] v[3] v[2] v[1] v[0]
  refine BitVec.eq_of_getElem_eq fun i hi => ?_
  match i, hi with
  | 0, _ => exact h0.symm
  | 1, _ => exact h1.symm
  | 2, _ => exact h2.symm
  | 3, _ => exact h3.symm
  | 4, _ => exact h4.symm

/-- The eleven patterns, their free bits `x`, `y`, `z` being the operation's operands (R68). -/
theorem decodeEvent_patterns (x y z : Bool) :
    decodeEvent (eventWord true false true x y) = .rise x y ∧
    decodeEvent (eventWord true true false x y) = .fall x y ∧
    decodeEvent (eventWord false x y true true) = .tickOff x y ∧
    decodeEvent (eventWord true false false true true) = .tickLow ∧
    decodeEvent (eventWord true true true true true) = .tickHigh ∧
    decodeEvent (eventWord false x y false z) = .holdOffStopped x y z ∧
    decodeEvent (eventWord false x y true false) = .holdOffRunning x y ∧
    decodeEvent (eventWord true false false false x) = .holdLowStopped x ∧
    decodeEvent (eventWord true false false true false) = .holdLowRunning ∧
    decodeEvent (eventWord true true true false x) = .holdHighStopped x ∧
    decodeEvent (eventWord true true true true false) = .holdHighRunning := by
  simp [decodeEvent, eventWord_bits]

/-- R68 "in words", as the four classes of vectors: an edge with the pin high, an edge with the pin low, no edge and a
tick to count, and the rest. -/
theorem decodeEvent_cases (irqEn pinQ pin run tick : Bool) :
    ((irqEn = true ∧ pinQ = false ∧ pin = true) ∧
      decodeEvent (eventWord irqEn pinQ pin run tick) = .rise run tick) ∨
    ((irqEn = true ∧ pinQ = true ∧ pin = false) ∧
      decodeEvent (eventWord irqEn pinQ pin run tick) = .fall run tick) ∨
    (¬(irqEn = true ∧ pin ≠ pinQ) ∧ (run = true ∧ tick = true) ∧
      decodeEvent (eventWord irqEn pinQ pin run tick) ∈ [.tickOff pinQ pin, .tickLow, .tickHigh]) ∨
    (¬(irqEn = true ∧ pin ≠ pinQ) ∧ ¬(run = true ∧ tick = true) ∧
      decodeEvent (eventWord irqEn pinQ pin run tick) ∈ [.holdOffStopped pinQ pin tick, .holdOffRunning pinQ pin,
        .holdLowStopped tick, .holdLowRunning, .holdHighStopped tick, .holdHighRunning]) := by
  cases irqEn with
  | false => cases run <;> cases tick <;> simp [decodeEvent, eventWord_bits]
  | true =>
    match pinQ, pin with
    | false, true => exact .inl ⟨⟨rfl, rfl, rfl⟩, by simp [decodeEvent, eventWord_bits]⟩
    | true, false => exact .inr (.inl ⟨⟨rfl, rfl, rfl⟩, by simp [decodeEvent, eventWord_bits]⟩)
    | false, false => cases run <;> cases tick <;> simp [decodeEvent, eventWord_bits]
    | true, true => cases run <;> cases tick <;> simp [decodeEvent, eventWord_bits]

/-- Settles O2: the four classes exclude each other, and so do the operations they select. -/
theorem eventPatternsSelectTheirOperation : Obligations.EventPatternsSelectTheirOperation := by
  refine ⟨decodeEvent_patterns, fun v => ⟨_, _, _, _, _, eq_eventWord_bits v⟩, fun irqEn pinQ pin run tick => ?_⟩
  rcases decodeEvent_cases irqEn pinQ pin run tick with ⟨⟨rfl, rfl, rfl⟩, h⟩ | ⟨⟨rfl, rfl, rfl⟩, h⟩ |
    ⟨hquiet, ⟨rfl, rfl⟩, h⟩ | ⟨hquiet, hcount, h⟩
  · simp [h]
  · simp [h]
  · simp only [List.mem_cons, List.not_mem_nil, or_false] at h
    rcases h with h | h | h <;> simp only [h, hquiet, ← and_assoc] <;> simp
  · simp only [List.mem_cons, List.not_mem_nil, or_false] at h
    rcases h with h | h | h | h | h | h <;> simp only [h, hquiet, hcount, ← and_assoc] <;> simp

end Sys2Proof.Machine
end

section
/-! PROOF. The read path (30_encoding.md R63): `result` and `rvalid`, which the outputs show, are written by phase B
alone, with the median of the cycle's pre-state. -/

namespace Sys2Proof.Machine

@[simp] theorem writeGetValue_result (s s' : State) : (writeGetValue s s').result = rebase (medianOrZero s) := rfl

@[simp] theorem writeGetMedian_result (s s' : State) : (writeGetMedian s s').result = medianOrZero s := rfl

@[simp] theorem writeGetValue_rvalid (s s' : State) : (writeGetValue s s').rvalid = true := rfl

@[simp] theorem writeGetMedian_rvalid (s s' : State) : (writeGetMedian s s').rvalid = true := rfl

@[simp] theorem medianOrZero_takeWord (s : State) : medianOrZero (takeWord s) = medianOrZero s := rfl

/-- Phase B writes `result` for the two read commands and holds it otherwise. -/
theorem writeCommand_result (cmd : BitVec 3) (s s' : State) :
    (writeCommand cmd s s').result =
      if cmd = 3#3 then rebase (medianOrZero s) else if cmd = 4#3 then medianOrZero s else s'.result := by
  rcases writeCommand_cases cmd s s' with ⟨rfl, h⟩ | ⟨rfl, h⟩ | ⟨rfl, h⟩ | ⟨rfl, h⟩ | ⟨-, -, h3, h4, h⟩ <;>
    rw [h] <;> simp [*]

/-- Phase B sets `rvalid` for the two read commands and clears it otherwise. -/
theorem writeCommand_rvalid (cmd : BitVec 3) (s s' : State) :
    (writeCommand cmd s s').rvalid = decide (cmd = 3#3 ∨ cmd = 4#3) := by
  rcases writeCommand_cases cmd s s' with ⟨rfl, h⟩ | ⟨rfl, h⟩ | ⟨rfl, h⟩ | ⟨rfl, h⟩ | ⟨-, -, h3, h4, h⟩ <;>
    rw [h] <;> simp [*]

/-- Phase A does not write `result`. -/
theorem writeCapture_result (pin tick : Bool) (s s' : State) :
    (writeCapture pin tick s s').result = s'.result := by
  obtain ⟨-, -, -, -, -, -, -, -, h, -⟩ := writeCapture_fields pin tick s s'
  exact h

/-- `result` after a cycle without reset. -/
theorem writeCycle_result (pin tick : Bool) (cmd : BitVec 3) (s : State) :
    (writeCycle pin tick cmd s).result =
      if cmd = 3#3 then rebase (medianOrZero s) else if cmd = 4#3 then medianOrZero s else s.result := by
  rw [writeCycle, writeCommand_result, writeCapture_result]

/-- `rvalid` after a cycle without reset. -/
theorem writeCycle_rvalid (pin tick : Bool) (cmd : BitVec 3) (s : State) :
    (writeCycle pin tick cmd s).rvalid = decide (cmd = 3#3 ∨ cmd = 4#3) :=
  writeCommand_rvalid cmd s _

/-- The outputs of the cycle after a step without reset. -/
theorem step_outputs {s t : State} (h : step s = .next t) (hrst : rstIn (fetchWord s) = false) :
    t.rdataO = (if cmdIn (fetchWord s) = 3#3 then rebase (medianOrZero s)
      else if cmdIn (fetchWord s) = 4#3 then medianOrZero s else s.rdataO) ∧
    t.rvalidO = decide (cmdIn (fetchWord s) = 3#3 ∨ cmdIn (fetchWord s) = 4#3) := by
  rcases step_inversion h with ⟨hreset, -⟩ | ⟨-, rfl⟩
  · simp [hrst] at hreset
  · exact ⟨writeCycle_result _ _ _ (takeWord s), writeCycle_rvalid _ _ _ (takeWord s)⟩

/-- Settles O39: `step_outputs`, read for each read command and for every other command. -/
theorem outputsShowTheResultOneCycleLater : Obligations.OutputsShowTheResultOneCycleLater := by
  refine ⟨fun s => ⟨rfl, rfl⟩, fun s t hstep hrst => ?_⟩
  obtain ⟨hdata, hvalid⟩ := step_outputs hstep hrst
  rw [hdata, hvalid]
  refine ⟨fun h3 => ?_, fun h4 => ?_, fun h3 h4 => ?_⟩
  · simp [h3]
  · simp [h4]
  · simp [h3, h4]

end Sys2Proof.Machine
end

section
/-! PROOF. Edge events (40_capture.md R77, R78): EDGE's predicate, and how it splits into RISE and FALL by the pin
level of the cycle. -/

namespace Sys2Proof.Machine

/-- EDGE's arm of `exec`. -/
theorem exec_edge (pin : Bool) (s : State) :
    exec (.edge pin) s = .next { s with intOut := .bit (edgeBit s.irqEn s.pinQ pin) } := rfl

/-- R77's predicate as a proposition. -/
theorem edgeBit_eq_true_iff {irqEn pinQ pin : Bool} :
    edgeBit irqEn pinQ pin = true ↔ irqEn = true ∧ pin ≠ pinQ := by
  simp [edgeBit]

@[simp] theorem edgeBit_disabled (pinQ pin : Bool) : edgeBit false pinQ pin = false := rfl

@[simp] theorem edgeBit_unchanged (irqEn pin : Bool) : edgeBit irqEn pin pin = false := by
  simp [edgeBit]

@[simp] theorem edgeBit_changed (irqEn pinQ : Bool) : edgeBit irqEn pinQ (!pinQ) = irqEn := by
  simp [edgeBit]

/-- Settles O8: the arm of EDGE, and the predicate where it is disabled, unchanged, or enabled and changed. -/
theorem edgeIsAnEnabledChange : Obligations.EdgeIsAnEnabledChange := by
  refine fun s pin => ⟨exec_edge pin s, edgeBit_eq_true_iff, fun hoff => ?_, fun hsame => ?_, fun hon => ?_⟩
  · rw [hoff, edgeBit_disabled]
  · rw [hsame, edgeBit_unchanged]
  · rw [edgeBit_changed, hon]

theorem rises_iff {s : State} {pin : Bool} :
    s.rises pin = true ↔ s.irqEn = true ∧ s.pinQ = false ∧ pin = true := by
  simp [State.rises, and_assoc]

theorem falls_iff {s : State} {pin : Bool} :
    s.falls pin = true ↔ s.irqEn = true ∧ s.pinQ = true ∧ pin = false := by
  simp [State.falls, and_assoc]

/-- A RISE is an edge event with the pin high. -/
theorem rises_eq_edgeBit_and (s : State) (pin : Bool) :
    s.rises pin = (edgeBit s.irqEn s.pinQ pin && pin) := by
  cases pin <;> simp [State.rises, edgeBit]

/-- A FALL is an edge event with the pin low. -/
theorem falls_eq_edgeBit_and (s : State) (pin : Bool) :
    s.falls pin = (edgeBit s.irqEn s.pinQ pin && !pin) := by
  cases pin <;> simp [State.falls, edgeBit]

/-- With the pin high a RISE is any edge event. -/
theorem rises_high (s : State) : s.rises true = edgeBit s.irqEn s.pinQ true := by
  rw [rises_eq_edgeBit_and, Bool.and_true]

/-- With the pin low a FALL is any edge event. -/
theorem falls_low (s : State) : s.falls false = edgeBit s.irqEn s.pinQ false := by
  rw [falls_eq_edgeBit_and, Bool.not_false, Bool.and_true]

theorem not_rises_of_no_event {s : State} {pin : Bool} (h : edgeBit s.irqEn s.pinQ pin = false) :
    s.rises pin = false := by
  rw [rises_eq_edgeBit_and, h, Bool.false_and]

theorem not_falls_of_no_event {s : State} {pin : Bool} (h : edgeBit s.irqEn s.pinQ pin = false) :
    s.falls pin = false := by
  rw [falls_eq_edgeBit_and, h, Bool.false_and]

theorem not_rises_of_falls {s : State} {pin : Bool} (h : s.falls pin = true) : s.rises pin = false := by
  obtain ⟨-, -, rfl⟩ := falls_iff.mp h
  rw [rises_eq_edgeBit_and, Bool.and_false]

/-- The event vector of a rising cycle fits pattern 101xx. -/
theorem decodeEvent_of_rises {s : State} {pin : Bool} (h : s.rises pin = true) (tick : Bool) :
    decodeEvent (eventVector s pin tick) = .rise s.run tick := by
  obtain ⟨hirq, hpinQ, rfl⟩ := rises_iff.mp h
  rw [eventVector, hirq, hpinQ]
  exact (decodeEvent_patterns s.run tick false).1

/-- The event vector of a falling cycle fits pattern 110xx. -/
theorem decodeEvent_of_falls {s : State} {pin : Bool} (h : s.falls pin = true) (tick : Bool) :
    decodeEvent (eventVector s pin tick) = .fall s.run tick := by
  obtain ⟨hirq, hpinQ, rfl⟩ := falls_iff.mp h
  rw [eventVector, hirq, hpinQ]
  exact (decodeEvent_patterns s.run tick false).2.1

/-- Settles O9: an event with the pin high rises, one with the pin low falls. -/
theorem pinLevelAloneChoosesTheAction : Obligations.PinLevelAloneChoosesTheAction := by
  refine fun s pin tick hevt => ⟨?high, ?low⟩
  case high =>
    rintro rfl
    have hrise : s.rises true = true := (rises_high s).trans hevt
    obtain ⟨-, hpinQ, -⟩ := rises_iff.mp hrise
    exact ⟨decodeEvent_of_rises hrise tick, hpinQ⟩
  case low =>
    rintro rfl
    have hfall : s.falls false = true := (falls_low s).trans hevt
    obtain ⟨-, hpinQ, -⟩ := falls_iff.mp hfall
    exact ⟨decodeEvent_of_falls hfall tick, hpinQ⟩

end Sys2Proof.Machine
end

section
/-! PROOF. The capture registers and the ring after a cycle without reset: `cnt`, `run` and `pin_q`, and `slot[]`,
`widx` and `full`, as phase A (40_capture.md) leaves them and phase B overrides them. -/

namespace Sys2Proof.Machine

@[simp] theorem writeGetValue_cnt (s s' : State) : (writeGetValue s s').cnt = s'.cnt := by simp [writeGetValue]

@[simp] theorem writeGetMedian_cnt (s s' : State) : (writeGetMedian s s').cnt = s'.cnt := by simp [writeGetMedian]

@[simp] theorem writeGetValue_run (s s' : State) : (writeGetValue s s').run = s'.run := by simp [writeGetValue]

@[simp] theorem writeGetMedian_run (s s' : State) : (writeGetMedian s s').run = s'.run := by simp [writeGetMedian]

/-- Of the commands INIT alone writes `cnt`. -/
@[simp] theorem writeCommand_cnt (cmd : BitVec 3) (s s' : State) :
    (writeCommand cmd s s').cnt = if cmd = 1#3 then 0#8 else s'.cnt := by
  rcases writeCommand_cases cmd s s' with ⟨rfl, h⟩ | ⟨rfl, h⟩ | ⟨rfl, h⟩ | ⟨rfl, h⟩ | ⟨h1, -, -, -, h⟩ <;>
    rw [h] <;> simp [*]

/-- Of the commands INIT and STOP alone write `run`, both clearing it. -/
@[simp] theorem writeCommand_run (cmd : BitVec 3) (s s' : State) :
    (writeCommand cmd s s').run = if cmd = 1#3 ∨ cmd = 2#3 then false else s'.run := by
  rcases writeCommand_cases cmd s s' with ⟨rfl, h⟩ | ⟨rfl, h⟩ | ⟨rfl, h⟩ | ⟨rfl, h⟩ | ⟨h1, h2, -, -, h⟩ <;>
    rw [h] <;> simp [*]

/-- No command writes a slot. -/
@[simp] theorem writeCommand_slot (cmd : BitVec 3) (s s' : State) (i : SlotIdx) :
    (writeCommand cmd s s').slot i = s'.slot i := by
  obtain ⟨hslots, -, -, -, hdraw, -⟩ := writeCommand_frame cmd s s'
  rw [State.slot, State.slot, hslots, hdraw]

/-- FALL pushes the pre-state's count, an ADD of it. -/
theorem writeFall_slot (s s' : State) (i : SlotIdx) :
    (writeFall s s').slot i = if i = s.widx then s.cnt else s'.slot i := by
  split
  case isTrue h => rw [h]; exact writeAdd_slot_same _ _ _
  case isFalse h => exact writeAdd_slot_other _ _ _ h

/-- A slot after phase A. -/
theorem writeCapture_slot (pin tick : Bool) (s s' : State) (i : SlotIdx) :
    (writeCapture pin tick s s').slot i = if s.falls pin = true ∧ i = s.widx then s.cnt else s'.slot i := by
  rcases writeCapture_cases pin tick s s' with ⟨h, e⟩ | ⟨h, e⟩ | ⟨-, h, -, -, e⟩ | ⟨-, h, -, e⟩ <;> rw [e]
  · simp [not_falls_of_rises h]
  · simp [h, writeFall_slot]
  · simp [h]
  · simp [h]

/-- `cnt` after a cycle: INIT's write, else RISE's, FALL's hold, TICK's or HOLD's. -/
theorem writeCycle_cnt (pin tick : Bool) (cmd : BitVec 3) (s : State) :
    (writeCycle pin tick cmd s).cnt =
      if cmd = 1#3 then 0#8
      else if s.rises pin then 0#8
      else if s.falls pin then s.cnt
      else if s.run && tick then s.cnt + 1#8 else s.cnt := by
  obtain ⟨-, -, hcnt, -⟩ := writeCapture_fields pin tick s s
  rw [writeCycle, writeCommand_cnt, hcnt]

/-- `run` after a cycle: INIT's and STOP's write, else RISE's or FALL's. -/
theorem writeCycle_run (pin tick : Bool) (cmd : BitVec 3) (s : State) :
    (writeCycle pin tick cmd s).run =
      if cmd = 1#3 ∨ cmd = 2#3 then false
      else if s.rises pin then true
      else if s.falls pin then false else s.run := by
  obtain ⟨-, hrun, -⟩ := writeCapture_fields pin tick s s
  rw [writeCycle, writeCommand_run, hrun]

/-- TRACK is performed in every cycle, and no command writes `pin_q`. -/
@[simp] theorem writeCycle_pinQ (pin tick : Bool) (cmd : BitVec 3) (s : State) :
    (writeCycle pin tick cmd s).pinQ = pin := by
  obtain ⟨-, -, -, hcommand, -⟩ := writeCommand_frame cmd s (writeCapture pin tick s s)
  obtain ⟨-, -, -, hcapture, -⟩ := writeCapture_fields pin tick s s
  exact hcommand.trans hcapture

/-- The ring's registers after a cycle: FALL's push, else as before. -/
theorem writeCycle_ring (pin tick : Bool) (cmd : BitVec 3) (s : State) :
    (writeCycle pin tick cmd s).slots =
      (if s.falls pin then Memory.write s.slots s.widx.toNat s.cnt else s.slots) ∧
    (writeCycle pin tick cmd s).widx = (if s.falls pin then s.widx + 1#2 else s.widx) ∧
    (writeCycle pin tick cmd s).full = (if s.falls pin then fullAfterAdd s.widx s.full else s.full) := by
  obtain ⟨hslots, hwidx, hfull, -⟩ := writeCommand_frame cmd s (writeCapture pin tick s s)
  obtain ⟨-, -, -, -, hslots', hwidx', hfull', -⟩ := writeCapture_fields pin tick s s
  exact ⟨hslots.trans hslots', hwidx.trans hwidx', hfull.trans hfull'⟩

/-- A slot after a cycle: a FALL's push at `widx`, else as before. -/
theorem writeCycle_slot (pin tick : Bool) (cmd : BitVec 3) (s : State) (i : SlotIdx) :
    (writeCycle pin tick cmd s).slot i = if s.falls pin = true ∧ i = s.widx then s.cnt else s.slot i := by
  rw [writeCycle, writeCommand_slot, writeCapture_slot]

/-- A cycle without a FALL keeps the ring's registers. -/
theorem writeCycle_ring_of_not_falls {s : State} {pin : Bool} (h : s.falls pin = false) (tick : Bool)
    (cmd : BitVec 3) :
    (writeCycle pin tick cmd s).slots = s.slots ∧ (writeCycle pin tick cmd s).widx = s.widx ∧
    (writeCycle pin tick cmd s).full = s.full := by
  simpa [h] using writeCycle_ring pin tick cmd s

theorem fullAfterAdd_eq_true_iff {widx : SlotIdx} {full : Bool} :
    fullAfterAdd widx full = true ↔ full = true ∨ widx = 3#2 := by
  simp [fullAfterAdd]

end Sys2Proof.Machine
end

section
/-! PROOF. The operations of the capture machine (40_capture.md R79 to R85), each alone and in a cycle. -/

namespace Sys2Proof.Machine

/-- RISE's arm of `exec`. -/
theorem exec_rise (run tick : Bool) (s : State) :
    exec (.rise run tick) s = .next { s with cnt := 0#8, run := true } := rfl

/-- Settles O10: a rising cycle does not fall, so it pushes nothing. -/
theorem riseZeroesAndStarts : Obligations.RiseZeroesAndStarts := by
  refine ⟨fun s run tick => exec_rise run tick s, fun s tick cmd hrise => ⟨_, exec_step_cycle s true tick cmd, ?_⟩⟩
  have hcnt : (writeCycle true tick cmd s).cnt = 0#8 := by simp [writeCycle_cnt, hrise]
  have hrun : (writeCycle true tick cmd s).run = true ↔ cmd ≠ 1#3 ∧ cmd ≠ 2#3 := by simp [writeCycle_run, hrise]
  exact ⟨hcnt, hrun, writeCycle_pinQ true tick cmd s,
    writeCycle_ring_of_not_falls (not_falls_of_rises hrise) tick cmd⟩

/-- FALL's arm of `exec`. -/
theorem exec_fall (run tick : Bool) (s : State) :
    exec (.fall run tick) s = .next { s with
      run := false
      slots := Memory.write s.slots s.widx.toNat s.cnt
      widx := s.widx + 1#2
      full := s.full || decide (s.widx = 3#2) } := rfl

/-- Settles O11: a falling cycle writes the slot at `widx` alone, and its command may only zero the count. -/
theorem fallStopsAndPushesTheCount : Obligations.FallStopsAndPushesTheCount := by
  refine ⟨fun s run tick => exec_fall run tick s, fun s tick cmd hfall => ⟨_, exec_step_cycle s false tick cmd, ?_⟩⟩
  have hrise := not_rises_of_falls hfall
  obtain ⟨-, hwidx, hfull⟩ := writeCycle_ring false tick cmd s
  rw [if_pos hfall] at hwidx hfull
  refine ⟨?run, ?pushed, fun a ha => ?others, hwidx, ?full, ?cnt, writeCycle_pinQ false tick cmd s⟩
  case run => simp [writeCycle_run, hrise, hfall]
  case pushed => simp [writeCycle_slot, hfall]
  case others => simp [writeCycle_slot, ha]
  case full => rw [hfull, fullAfterAdd_eq_true_iff]
  case cnt => simp [writeCycle_cnt, hrise, hfall]

/-- The accumulator's addition in the integers, with its wrap at 255. -/
theorem cnt_add_one_eq (c : Sample) : c + 1#8 = BitVec.ofNat 8 ((c.toNat + 1) % 256) := by
  apply BitVec.eq_of_toNat_eq
  simp

/-- The three TICK rows have one arm of `exec`. -/
theorem exec_tick_rows (pinQ pin : Bool) (s : State) :
    exec (.tickOff pinQ pin) s = .next { s with cnt := s.cnt + 1#8 } ∧
    exec .tickLow s = .next { s with cnt := s.cnt + 1#8 } ∧
    exec .tickHigh s = .next { s with cnt := s.cnt + 1#8 } :=
  ⟨rfl, rfl, rfl⟩

/-- Without an edge event `cnt` is INIT's 0, else it counts when it runs and a tick is offered. -/
theorem writeCycle_cnt_of_no_event {s : State} {pin : Bool} (h : edgeBit s.irqEn s.pinQ pin = false) (tick : Bool)
    (cmd : BitVec 3) :
    (writeCycle pin tick cmd s).cnt =
      if cmd = 1#3 then 0#8 else if s.run && tick then s.cnt + 1#8 else s.cnt := by
  simp [writeCycle_cnt, not_rises_of_no_event h, not_falls_of_no_event h]

/-- Settles O12: 255 + 1 is 256, which is 0 modulo 256. -/
theorem tickCountsModulo256 : Obligations.TickCountsModulo256 := by
  refine ⟨fun s pinQ pin => ?_, fun s pin cmd hquiet => ⟨_, exec_step_cycle s pin true cmd, ?_⟩⟩
  · obtain ⟨hoff, hlow, hhigh⟩ := exec_tick_rows pinQ pin s
    rw [← cnt_add_one_eq]
    refine ⟨hoff, hlow, hhigh, fun hmax => ?_⟩
    have hwrap : s.cnt + 1#8 = 0#8 := by rw [hmax]; rfl
    rw [hhigh, hwrap]
  · rw [writeCycle_cnt_of_no_event hquiet, Bool.and_true]

/-- The six HOLD rows have one arm of `exec`. -/
theorem exec_hold_rows (pinQ pin tick : Bool) (s : State) :
    exec (.holdOffStopped pinQ pin tick) s = .next s ∧ exec (.holdOffRunning pinQ pin) s = .next s ∧
    exec (.holdLowStopped tick) s = .next s ∧ exec .holdLowRunning s = .next s ∧
    exec (.holdHighStopped tick) s = .next s ∧ exec .holdHighRunning s = .next s :=
  ⟨rfl, rfl, rfl, rfl, rfl, rfl⟩

/-- Settles O13: without an event nothing rises or falls, and stopped or without a tick nothing is counted. -/
theorem holdWritesNothing : Obligations.HoldWritesNothing := by
  refine ⟨fun s pinQ pin tick => exec_hold_rows pinQ pin tick s,
    fun s pin tick cmd hquiet hidle => ⟨_, exec_step_cycle s pin tick cmd, ?_⟩⟩
  have hfall := not_falls_of_no_event hquiet
  have huncounted : (s.run && tick) = false := Bool.and_eq_false_iff.mpr hidle
  obtain ⟨hslots, hwidx, hfull⟩ := writeCycle_ring_of_not_falls hfall tick cmd
  refine ⟨?cnt, ?run, hslots, hwidx, hfull, writeCycle_pinQ pin tick cmd s⟩
  case cnt => simp [writeCycle_cnt_of_no_event hquiet, huncounted]
  case run => simp [writeCycle_run, not_rises_of_no_event hquiet, hfall]

/-- TRACK's arm of `exec`. -/
theorem exec_track (pin : Bool) (s : State) : exec (.track pin) s = .next { s with pinQ := pin } := rfl

/-- Settles O14: `pin_q` is the pin after every cycle, and an unchanged pin is no event. -/
theorem trackFollowsThePin : Obligations.TrackFollowsThePin := by
  refine ⟨fun s pin => exec_track pin s, fun s pin tick cmd => ⟨_, exec_step_cycle s pin tick cmd, ?_⟩⟩
  rw [writeCycle_pinQ]
  exact ⟨rfl, edgeBit_unchanged _ pin⟩

/-- Neither RISE nor FALL reads the tick that its vector carries. -/
theorem writeCapture_tick_of_event {s : State} {pin : Bool} (h : edgeBit s.irqEn s.pinQ pin = true) (s' : State) :
    writeCapture pin true s s' = writeCapture pin false s s' := by
  rw [writeCapture, writeCapture]
  cases pin with
  | true =>
    have hrise : s.rises true = true := (rises_high s).trans h
    rw [decodeEvent_of_rises hrise, decodeEvent_of_rises hrise]
    rfl
  | false =>
    have hfall : s.falls false = true := (falls_low s).trans h
    rw [decodeEvent_of_falls hfall, decodeEvent_of_falls hfall]
    rfl

/-- Settles O15: a RISE's zero and a FALL's hold and push come before the tick in `cnt` and in the ring. -/
theorem edgeEventDropsTheTick : Obligations.EdgeEventDropsTheTick := by
  refine fun s pin cmd hevt => ⟨?_, _, exec_step_cycle s pin true cmd, ?zeroed, ?held, ?pushed⟩
  · rw [exec_step_cycle, exec_step_cycle, writeCycle, writeCycle, writeCapture_tick_of_event hevt]
  case zeroed =>
    rintro rfl
    have hrise : s.rises true = true := (rises_high s).trans hevt
    simp [writeCycle_cnt, hrise]
  case held =>
    rintro rfl hcmd
    have hfall : s.falls false = true := (falls_low s).trans hevt
    simp [writeCycle_cnt, not_rises_of_falls hfall, hfall, hcmd]
  case pushed =>
    rintro rfl
    have hfall : s.falls false = true := (falls_low s).trans hevt
    simp [writeCycle_slot, hfall]

end Sys2Proof.Machine
end

section
/-! PROOF. The ring buffer's operations executed alone (41_ringbuffer.md R90 to R93): the push, and the three reads. -/

namespace Sys2Proof.Machine

/-- ADD's arm of `exec`. -/
theorem exec_add (v : Sample) (s : State) : exec (.add v) s = .next (writeAdd v s s) := rfl

/-- ADD's frame: the ring's three fields are all it writes. -/
theorem writeAdd_frame (v : Sample) (s s' : State) :
    writeAdd v s s' = { s' with
      slots := (writeAdd v s s').slots, widx := (writeAdd v s s').widx, full := (writeAdd v s s').full } := rfl

/-- The index's advance in the integers, with its wrap from 3 to 0 (R90). -/
theorem toNat_widx_add_one (w : SlotIdx) : (w + 1#2).toNat = (w.toNat + 1) % 4 := BitVec.toNat_add w 1#2

/-- An ADD at another slot than 3 keeps `full` (R90). -/
theorem fullAfterAdd_of_ne {widx : SlotIdx} (h : widx ≠ 3#2) (full : Bool) : fullAfterAdd widx full = full := by
  rw [fullAfterAdd, beq_false_of_ne h, Bool.or_false]

/-- Settles O17: the push by the laws of `writeAdd`, `full` by whether the slot written is slot 3. -/
theorem addStoresAtTheWriteIndex : Obligations.AddStoresAtTheWriteIndex := by
  refine fun s v => ⟨writeAdd v s s, exec_add v s, writeAdd_frame v s s, writeAdd_slot_same v s s,
    fun _ hother => writeAdd_slot_other v s s hother, ?index, fun hlast => ?filled, fun hearlier => ?kept⟩
  case index => rw [writeAdd_widx, toNat_widx_add_one]
  case filled => rw [writeAdd_full, fullAfterAdd_eq_true_iff]; exact .inr hlast
  case kept => rw [writeAdd_full, fullAfterAdd_of_ne hearlier]

/-- ISFULL's arm of `exec`. -/
theorem exec_isFull (s : State) : exec .isFull s = .next { s with intOut := .bit s.full } := rfl

/-- ELEMENTAT's arm of `exec`: the index is the slot's physical position. -/
theorem exec_elementAt (i : SlotIdx) (s : State) :
    exec (.elementAt i) s = .next { s with intOut := .sample (s.slot i) } := rfl

/-- CAPACITY's arm of `exec`: the value it hands back reads no field of the state. -/
theorem exec_capacity (s : State) : exec .capacity s = .next { s with intOut := .count 4 } := rfl

/-- Settles O18: the arms of the three reads. -/
theorem ringReadsHandBackTheirValue : Obligations.RingReadsHandBackTheirValue :=
  fun s i => ⟨exec_isFull s, exec_elementAt i s, exec_capacity s⟩

end Sys2Proof.Machine
end

section
/-! PROOF. The median filter's arithmetic (42_median.md R100, R101): the sorting network orders its operands, and a
multiset has one ascending list. -/

namespace Sys2Proof.Machine

@[simp] theorem toNat_lower (x y : Sample) : (lower x y).toNat = min x.toNat y.toNat := by
  rw [lower, apply_ite BitVec.toNat, min_def]

@[simp] theorem toNat_upper (x y : Sample) : (upper x y).toNat = max x.toNat y.toNat := by
  rw [upper, apply_ite BitVec.toNat, max_def]

/-- One compare-exchange of the network loses neither value. -/
theorem lower_upper_perm (x y : Sample) : [lower x y, upper x y].Perm [x, y] := by
  by_cases h : x.toNat ≤ y.toNat
  · rw [lower, upper, if_pos h, if_pos h]
  · rw [lower, upper, if_neg h, if_neg h]
    exact .swap x y []

/-- Two compare-exchanges side by side. -/
theorem lower_upper_perm_pairs (a b c d : Sample) :
    [lower a b, upper a b, lower c d, upper c d].Perm [a, b, c, d] :=
  (lower_upper_perm a b).append (lower_upper_perm c d)

/-- The wires between two stages of the network cross. -/
theorem perm_swap_middle (a b c d : Sample) : [a, b, c, d].Perm [a, c, b, d] :=
  .cons a (.swap c b [d])

/-- The network's last compare-exchange, on the two middle wires. -/
theorem lower_upper_perm_middle (a b c d : Sample) : [a, lower b c, upper b c, d].Perm [a, b, c, d] :=
  ((lower_upper_perm b c).append_right [d]).cons a

/-- The network of R101, stage by stage from its result back to its operands. -/
theorem sort4_perm (a0 a1 a2 a3 : Sample) : (sort4 a0 a1 a2 a3).toList.Perm [a0, a1, a2, a3] :=
  (lower_upper_perm_middle _ _ _ _).trans <| (perm_swap_middle _ _ _ _).trans <|
    (lower_upper_perm_pairs _ _ _ _).trans <| (perm_swap_middle _ _ _ _).trans <|
      lower_upper_perm_pairs a0 a1 a2 a3

/-- In the naturals each wire of the network is a minimum or a maximum of two wires of the stage before. -/
theorem sort4_ascending (a0 a1 a2 a3 : Sample) :
    (sort4 a0 a1 a2 a3)[0].toNat ≤ (sort4 a0 a1 a2 a3)[1].toNat ∧
    (sort4 a0 a1 a2 a3)[1].toNat ≤ (sort4 a0 a1 a2 a3)[2].toNat ∧
    (sort4 a0 a1 a2 a3)[2].toNat ≤ (sort4 a0 a1 a2 a3)[3].toNat := by
  simp only [sort4, Vector.getElem_mk, List.getElem_toArray, List.getElem_cons_zero, List.getElem_cons_succ,
    toNat_lower, toNat_upper]
  omega

theorem sort4_sortedForm (a0 a1 a2 a3 : Sample) : SortedFormOf (sort4 a0 a1 a2 a3) a0 a1 a2 a3 := by
  obtain ⟨h01, h12, h23⟩ := sort4_ascending a0 a1 a2 a3
  exact ⟨h01, h12, h23, sort4_perm a0 a1 a2 a3⟩

theorem toList_eq_getElem_four (v : Vector Sample 4) : v.toList = [v[0], v[1], v[2], v[3]] := by
  refine List.ext_getElem (by simp) fun i hi _ => ?_
  rw [Vector.length_toList] at hi
  interval_cases i <;> simp

/-- The three neighbouring comparisons of a sorted form order every pair of its values. -/
theorem SortedFormOf.pairwise {v : Vector Sample 4} {a0 a1 a2 a3 : Sample} (h : SortedFormOf v a0 a1 a2 a3) :
    v.toList.Pairwise (fun x y => x.toNat ≤ y.toNat) := by
  obtain ⟨h01, h12, h23, -⟩ := h
  simp only [toList_eq_getElem_four, List.pairwise_cons, List.forall_mem_cons, List.not_mem_nil,
    IsEmpty.forall_iff, implies_true, List.Pairwise.nil, and_true]
  omega

/-- A multiset has one ascending list: unsigned comparison tells any two values apart. -/
theorem sortedForm_unique {v w : Vector Sample 4} {a0 a1 a2 a3 : Sample} (hv : SortedFormOf v a0 a1 a2 a3)
    (hw : SortedFormOf w a0 a1 a2 a3) : v = w := by
  have hantisymm (x y : Sample) (hxy : x.toNat ≤ y.toNat) (hyx : y.toNat ≤ x.toNat) : x = y :=
    BitVec.eq_of_toNat_eq (Nat.le_antisymm hxy hyx)
  have hascv := hv.pairwise
  have hascw := hw.pairwise
  obtain ⟨-, -, -, hpermv⟩ := hv
  obtain ⟨-, -, -, hpermw⟩ := hw
  exact Vector.toList_inj.mp <|
    (hpermv.trans hpermw.symm).eq_of_pairwise (fun x y _ _ => hantisymm x y) hascv hascw

end Sys2Proof.Machine
end

section
/-! PROOF. The median filter's operations executed alone (42_median.md R99 to R105). -/

namespace Sys2Proof.Machine

/-- SNAPSHOT's arm of `exec`. -/
theorem exec_snapshot (s : State) :
    exec .snapshot s = .next { s with snap := snapshotOf s, intOut := .four (snapshotOf s) } := rfl

/-- Settles O22: `snapshotOf` lists the four slots in storage order. -/
theorem snapshotCopiesAllFourSlots : Obligations.SnapshotCopiesAllFourSlots := exec_snapshot

/-- SORT4's arm of `exec`. -/
theorem exec_sort4 (a0 a1 a2 a3 : Sample) (s : State) :
    exec (.sort4 a0 a1 a2 a3) s = .next { s with intOut := .four (sort4 a0 a1 a2 a3) } := rfl

/-- Settles O23: the network's result is a sorted form, and the only one. -/
theorem sort4GivesTheSortedMultiset : Obligations.Sort4GivesTheSortedMultiset :=
  fun a0 a1 a2 a3 => ⟨⟨sort4 a0 a1 a2 a3, sort4_sortedForm a0 a1 a2 a3, exec_sort4 a0 a1 a2 a3⟩,
    fun _ _ => sortedForm_unique⟩

/-- MEDIAN4's arm of `exec`. -/
theorem exec_median4 (a0 a1 a2 a3 : Sample) (s : State) :
    exec (.median4 a0 a1 a2 a3) s = .next { s with intOut := .sample (median4 a0 a1 a2 a3) } := rfl

/-- The upper median is element 2 of any sorted form, there being only one (R102). -/
theorem median4_eq_of_sortedForm {v : Vector Sample 4} {a0 a1 a2 a3 : Sample} (h : SortedFormOf v a0 a1 a2 a3) :
    median4 a0 a1 a2 a3 = v[2] := by
  rw [median4, sortedForm_unique (sort4_sortedForm a0 a1 a2 a3) h]

/-- Settles O24: `sort4`'s result is the sorted form whose element 2 is handed back. -/
theorem median4IsTheUpperMedian : Obligations.Median4IsTheUpperMedian :=
  fun a0 a1 a2 a3 => ⟨⟨sort4 a0 a1 a2 a3, sort4_sortedForm a0 a1 a2 a3, exec_median4 a0 a1 a2 a3⟩,
    fun _ => median4_eq_of_sortedForm⟩

/-- MEDIANORZERO's arm of `exec`. -/
theorem exec_medianOrZero (s : State) :
    exec .medianOrZero s = .next { writeMedianOrZero s s with intOut := .sample (medianOrZero s) } := rfl

/-- GETMEDIAN's arm of `exec`. -/
theorem exec_getMedian (s : State) :
    exec .getMedian s = .next { writeMedianOrZero s s with result := medianOrZero s, rvalid := true } := rfl

/-- The sentinel: no slot is read before the first fill (R104). -/
theorem medianOrZero_of_not_full {s : State} (h : s.full = false) : medianOrZero s = 0#8 :=
  if_neg (Bool.eq_false_iff.mp h)

theorem medianOrZero_of_full {s : State} (h : s.full = true) :
    medianOrZero s = median4 (s.slot 0#2) (s.slot 1#2) (s.slot 2#2) (s.slot 3#2) :=
  if_pos h

theorem writeMedianOrZero_of_not_full {s : State} (h : s.full = false) (s' : State) : writeMedianOrZero s s' = s' :=
  if_neg (Bool.eq_false_iff.mp h)

theorem writeMedianOrZero_of_full {s : State} (h : s.full = true) (s' : State) :
    writeMedianOrZero s s' = { s' with snap := #v[s.slot 0#2, s.slot 1#2, s.slot 2#2, s.slot 3#2] } :=
  if_pos h

/-- Settles O27: value and snapshot in the two fill states. -/
theorem medianOrZeroFoldsNotReadyIntoZero : Obligations.MedianOrZeroFoldsNotReadyIntoZero := by
  refine fun s => ⟨fun hempty => ?_, fun hfull => ?_⟩
  · rw [exec_medianOrZero, medianOrZero_of_not_full hempty, writeMedianOrZero_of_not_full hempty]
  · rw [exec_medianOrZero, medianOrZero_of_full hfull, writeMedianOrZero_of_full hfull]

/-- Settles O28: MEDIANORZERO's value and snapshot, the value written to `result`. -/
theorem getMedianReturnsTheRawMedian : Obligations.GetMedianReturnsTheRawMedian := by
  refine fun s => ⟨fun hempty => ?_, fun hfull => ?_⟩
  · rw [exec_getMedian, medianOrZero_of_not_full hempty, writeMedianOrZero_of_not_full hempty]
  · rw [exec_getMedian, medianOrZero_of_full hfull, writeMedianOrZero_of_full hfull]

end Sys2Proof.Machine
end

section
/-! PROOF. REBASE (43_decoder_api.md R116): the subtraction of the naturals, which stops at 0 and so needs no more
than the 8 bits of its operands. -/

namespace Sys2Proof.Machine

/-- The clamp and the borrow-free difference together are the subtraction of the naturals. -/
@[simp] theorem toNat_rebaseBy (zr m : Sample) : (rebaseBy zr m).toNat = m.toNat - zr.toNat := by
  rw [rebaseBy]
  split
  case isTrue hbelow => exact (Nat.sub_eq_zero_of_le (Nat.le_of_lt hbelow)).symm
  case isFalse habove => exact BitVec.toNat_sub_of_le (Nat.le_of_not_lt habove)

/-- R116's clamp in the naturals, where a subtraction from a smaller value is already 0. -/
theorem ite_lt_zero_sub_eq_sub (m zr : Nat) : (if m < zr then 0 else m - zr) = m - zr := by
  split <;> omega

/-- Every re-based value is below `2^W - ZR` (R116). -/
theorem toNat_rebaseBy_le (zr m : Sample) : (rebaseBy zr m).toNat ≤ 255 - zr.toNat := by
  rw [toNat_rebaseBy]
  exact Nat.sub_le_sub_right (Nat.le_of_lt_succ m.isLt) zr.toNat

/-- The sentinel 0 is re-based to itself, for whatever the zero reference is (R117). -/
@[simp] theorem rebase_zero : rebase 0#8 = 0#8 :=
  BitVec.eq_of_toNat_eq ((toNat_rebaseBy Config.zeroReference 0#8).trans (Nat.zero_sub _))

/-- REBASE's arm of `exec`. -/
theorem exec_rebase (m : Sample) (s : State) :
    exec (.rebase m) s = .next { s with intOut := .sample (rebase m) } := rfl

/-- Settles O34: the value handed back is the natural difference, `rebase` being `rebaseBy` at the open constant. -/
theorem rebaseClampsAtZero : Obligations.RebaseClampsAtZero := by
  refine ⟨fun s m => ?handedBack, fun zr m => ⟨?difference, toNat_rebaseBy_le zr m⟩⟩
  case handedBack =>
    rw [exec_rebase, ite_lt_zero_sub_eq_sub, ← toNat_rebaseBy, BitVec.ofNat_toNat, BitVec.setWidth_eq, rebase]
  case difference => rw [toNat_rebaseBy, ite_lt_zero_sub_eq_sub]

end Sys2Proof.Machine
end

section
/-! PROOF. The Decoder API's commands (43_decoder_api.md R110 to R120), each alone, and `irq_en` and the outputs'
registers after a cycle. -/

namespace Sys2Proof.Machine

/-- Settles O30: NOP's arm of `exec`. -/
theorem nopClearsRvalidOnly : Obligations.NopClearsRvalidOnly := exec_nop

/-- INIT's arm of `exec`. -/
theorem exec_init (s : State) : exec .init s = .next (writeInit s s) := rfl

/-- INIT's frame: five of the spec's registers and the model's mark `reinit` are all it writes (R111). -/
theorem writeInit_frame (s s' : State) :
    writeInit s s' = { s' with
      irqEn := true, run := false, cnt := 0#8, inited := true, rvalid := false,
      reinit := (writeInit s s').reinit } := rfl

/-- Settles O31: INIT's one transfer and its frame. -/
theorem initEnablesStopsAndZeroes : Obligations.InitEnablesStopsAndZeroes :=
  fun s => ⟨writeInit s s, exec_init s, writeInit_frame s s⟩

/-- STOP's arm of `exec`. -/
theorem exec_stop (s : State) : exec .stop s = .next { s with irqEn := false, run := false, rvalid := false } := rfl

@[simp] theorem writeGetValue_irqEn (s s' : State) : (writeGetValue s s').irqEn = s'.irqEn :=
  writeMedianOrZero_irqEn s s'

@[simp] theorem writeGetMedian_irqEn (s s' : State) : (writeGetMedian s s').irqEn = s'.irqEn :=
  writeMedianOrZero_irqEn s s'

/-- Of the commands INIT sets `irq_en` and STOP clears it. -/
@[simp] theorem writeCommand_irqEn (cmd : BitVec 3) (s s' : State) :
    (writeCommand cmd s s').irqEn = if cmd = 1#3 then true else if cmd = 2#3 then false else s'.irqEn := by
  rcases writeCommand_cases cmd s s' with ⟨rfl, h⟩ | ⟨rfl, h⟩ | ⟨rfl, h⟩ | ⟨rfl, h⟩ | ⟨h1, h2, -, -, h⟩ <;>
    rw [h] <;> simp [*]

/-- `irq_en` after a cycle: the command's write, phase A having none. -/
theorem writeCycle_irqEn (pin tick : Bool) (cmd : BitVec 3) (s : State) :
    (writeCycle pin tick cmd s).irqEn =
      if cmd = 1#3 then true else if cmd = 2#3 then false else s.irqEn := by
  obtain ⟨hirqEn, -⟩ := writeCapture_fields pin tick s s
  rw [writeCycle, writeCommand_irqEn, hirqEn]

/-- Settles O33: without an event a running accumulator counts the tick in phase A, and STOP's writes in phase B leave
`cnt` alone. -/
theorem stopDisablesAndHalts : Obligations.StopDisablesAndHalts := by
  refine ⟨exec_stop, fun s pin hquiet hrun => ⟨_, exec_step_cycle s pin true 2#3, ?counted, ?halted, ?disabled⟩⟩
  case counted => simp [writeCycle_cnt_of_no_event hquiet, hrun]
  case halted => simp [writeCycle_run]
  case disabled => simp [writeCycle_irqEn]

/-- GETVALUE's arm of `exec`. -/
theorem exec_getValue (s : State) :
    exec .getValue s =
      .next { writeMedianOrZero s s with result := rebase (medianOrZero s), rvalid := true } := rfl

/-- Settles O36: MEDIANORZERO's value and snapshot in the two fill states, the value re-based; the sentinel stays 0. -/
theorem getValueReturnsTheRebasedMedian : Obligations.GetValueReturnsTheRebasedMedian := by
  refine fun s => ⟨fun hempty => ?_, fun hfull => ?_⟩
  · rw [exec_getValue, medianOrZero_of_not_full hempty, writeMedianOrZero_of_not_full hempty, rebase_zero]
  · rw [exec_getValue, medianOrZero_of_full hfull, writeMedianOrZero_of_full hfull]

/-- Settles O38: the two registers after a cycle, read for each read command and for every other command. -/
theorem resultIsHeldBetweenReads : Obligations.ResultIsHeldBetweenReads := by
  refine fun s pin tick cmd => ⟨_, exec_step_cycle s pin tick cmd, ?_⟩
  rw [writeCycle_rvalid, writeCycle_result]
  refine ⟨decide_eq_true_iff, fun hvalue => if_pos hvalue, fun hmedian => ?_, fun hvalue hmedian => ?_⟩
  · simp [hmedian]
  · rw [if_neg hvalue, if_neg hmedian]

end Sys2Proof.Machine
end

section
/-! PROOF. STEP against R122's pseudocode (44_cycle_step.md): `cycleByRule` with NOP is its phase A, and each command's
writes override that phase's as the pseudocode's later assignments do. -/

namespace Sys2Proof.Machine

/-- Phase A does not write `snap`. -/
theorem writeCapture_snap (pin tick : Bool) (s s' : State) : (writeCapture pin tick s s').snap = s'.snap := by
  obtain ⟨-, -, -, -, -, -, -, h, -⟩ := writeCapture_fields pin tick s s'
  exact h

/-- FALL's transfer in the pseudocode's terms: the index modulo 4, `full` set by the push into slot 3 (R80, R90). -/
theorem writeFall_eq (s : State) :
    writeFall s s = { s with
      run := false
      slots := Memory.write s.slots s.widx.toNat s.cnt
      widx := BitVec.ofNat 2 ((s.widx.toNat + 1) % 4)
      full := if s.widx = 3#2 then true else s.full } := by
  have hwidx : BitVec.ofNat 2 ((s.widx.toNat + 1) % 4) = s.widx + 1#2 := by
    rw [← toNat_widx_add_one, BitVec.ofNat_toNat, BitVec.setWidth_eq]
  have hfull : (if s.widx = 3#2 then true else s.full) = fullAfterAdd s.widx s.full := by
    split
    case isTrue hlast => exact (fullAfterAdd_eq_true_iff.mpr (.inr hlast)).symm
    case isFalse hearlier => exact (fullAfterAdd_of_ne hearlier s.full).symm
  rw [hwidx, hfull]
  rfl

/-- The pseudocode's phase A, which a NOP cycle leaves but for `rvalid`, is RISE, FALL, TICK or HOLD with TRACK. -/
theorem writeCapture_eq_cycleByRule_nop (pin tick : Bool) (s : State) :
    writeCapture pin tick s s = { cycleByRule pin tick 0#3 s with rvalid := s.rvalid } := by
  have hrise : (s.irqEn && (pin != s.pinQ) && pin) = s.rises pin := (rises_eq_edgeBit_and s pin).symm
  have hfall : (s.irqEn && (pin != s.pinQ) && !pin) = s.falls pin := (falls_eq_edgeBit_and s pin).symm
  simp only [cycleByRule, hrise, hfall, ← writeFall_eq, ← cnt_add_one_eq]
  rcases writeCapture_cases pin tick s s with ⟨h, e⟩ | ⟨h, e⟩ | ⟨hr, hf, hrun, htick, e⟩ | ⟨hr, hf, hidle, e⟩ <;> rw [e]
  case inl => simp [h, writeRise, writeTrack]
  case inr.inl => simp [h, not_rises_of_falls h, writeFall, writeTrack]
  case inr.inr.inl => simp [hr, hf, hrun, htick, writeTick, writeTrack]
  case inr.inr.inr =>
    have huncounted : (s.run && tick) = false := Bool.and_eq_false_iff.mpr hidle
    simp [hr, hf, huncounted, writeTrack]

/-- MEDIANORZERO's one write, conditional in its field as in the pseudocode. -/
theorem writeMedianOrZero_eq (s s' : State) :
    writeMedianOrZero s s' = { s' with snap := if s.full then snapshotOf s else s'.snap } := by
  rw [writeMedianOrZero, isFull]
  split <;> rfl

/-- REBASE as the subtraction of the naturals. -/
theorem rebase_eq_ofNat_sub (m : Sample) :
    rebase m = BitVec.ofNat 8 (m.toNat - Config.zeroReference.toNat) := by
  rw [rebase, ← toNat_rebaseBy, BitVec.ofNat_toNat, BitVec.setWidth_eq]

/-- A cycle and the pseudocode agree in every field but the model's own `reinit`. -/
theorem writeCycle_eq_cycleByRule (pin tick : Bool) (cmd : BitVec 3) (s : State) :
    writeCycle pin tick cmd s =
      { cycleByRule pin tick cmd s with reinit := (writeCycle pin tick cmd s).reinit } := by
  have hcapture := writeCapture_eq_cycleByRule_nop pin tick s
  rcases writeCommand_cases cmd s (writeCapture pin tick s s) with ⟨rfl, e⟩ | ⟨rfl, e⟩ | ⟨rfl, e⟩ | ⟨rfl, e⟩ |
    ⟨h1, h2, h3, h4, e⟩
  case inl => rw [writeCycle, e, hcapture]; rfl
  case inr.inl => rw [writeCycle, e, hcapture]; rfl
  case inr.inr.inl =>
    rw [writeCycle, e, writeGetValue, rebase_eq_ofNat_sub, writeMedianOrZero_eq, writeCapture_snap, hcapture]
    rfl
  case inr.inr.inr.inl =>
    rw [writeCycle, e, writeGetMedian, writeMedianOrZero_eq, writeCapture_snap, hcapture]
    rfl
  case inr.inr.inr.inr =>
    rw [writeCycle, e, hcapture]
    simp only [cycleByRule, if_neg h1, if_neg h2, if_neg h3, if_neg h4]
    rfl

/-- Settles O42: `writeCycle_eq_cycleByRule`, and the arms of a reset cycle and of RESET. -/
theorem stepIsTheTransitionFunction : Obligations.StepIsTheTransitionFunction :=
  fun s pin tick cmd => ⟨⟨_, exec_step_cycle s pin tick cmd, writeCycle_eq_cycleByRule pin tick cmd s⟩,
    (exec_step_reset s pin tick cmd).trans (exec_reset s).symm⟩

end Sys2Proof.Machine
end

section
/-! PROOF. The two agents in one cycle (44_cycle_step.md R125 to R127): a read or STOP beside an event, INIT beside
anything. -/

namespace Sys2Proof.Machine

/-- A read command's snapshot in a cycle is of the pre-state's ring. -/
theorem writeCycle_snap_of_read {cmd : BitVec 3} (h : cmd = 3#3 ∨ cmd = 4#3) (pin tick : Bool) (s : State) :
    (writeCycle pin tick cmd s).snap = if s.full then snapshotOf s else s.snap := by
  rw [writeCycle, writeCommand_snap_of_read h, writeCapture_snap]

/-- The snapshot lists the slots by their physical position (R99). -/
theorem snapshotOf_getElem? (s : State) (i : SlotIdx) : (snapshotOf s).toList[i.toNat]? = some (s.slot i) := by
  have hslots : ∀ j : SlotIdx, j = 0#2 ∨ j = 1#2 ∨ j = 2#2 ∨ j = 3#2 := by decide
  rcases hslots i with rfl | rfl | rfl | rfl <;> rfl

/-- Settles O45: phase B reads the pre-state's ring; the pushed slot is in the ring that the next cycle reads. -/
theorem readInAPushCycleSeesTheOlderRing : Obligations.ReadInAPushCycleSeesTheOlderRing := by
  intro s tick cmd hfall hcmd
  have hpushed : (writeCycle false tick cmd s).slot s.widx = s.cnt := by simp [writeCycle_slot, hfall]
  have hsnap := writeCycle_snap_of_read hcmd false tick s
  have hresult := writeCycle_result false tick cmd s
  refine ⟨_, exec_step_cycle s false tick cmd, hpushed, fun a ha => ?others, fun hempty => ?sentinel,
    fun hfull => ?median, fun hfilled pin' tick' cmd' hcmd' => ⟨_, exec_step_cycle _ pin' tick' cmd', ?next⟩⟩
  case others => simp [writeCycle_slot, ha]
  case sentinel =>
    rw [medianOrZero_of_not_full hempty, rebase_zero] at hresult
    rw [hsnap, hresult]
    rcases hcmd with rfl | rfl <;> simp [hempty]
  case median =>
    rw [medianOrZero_of_full hfull] at hresult
    rw [hsnap, hresult, if_pos hfull]
    exact ⟨rfl, fun hvalue => if_pos hvalue, fun hmedian => by simp [hmedian]⟩
  case next => rw [writeCycle_snap_of_read hcmd', if_pos hfilled, snapshotOf_getElem?, hpushed]

/-- Settles O46: phase A serves the event or counts the tick; of its writes STOP overrides `run` alone. -/
theorem stopDoesNotCancelTheEvent : Obligations.StopDoesNotCancelTheEvent := by
  intro s tick
  have hrun (pin tick : Bool) : (writeCycle pin tick 2#3 s).run = false := by simp [writeCycle_run]
  have hirqEn (pin tick : Bool) : (writeCycle pin tick 2#3 s).irqEn = false := by simp [writeCycle_irqEn]
  refine ⟨fun hfall => ?fall, fun hrise => ?rise, fun pin hquiet hcounting => ?tick⟩
  case fall =>
    obtain ⟨-, hwidx, -⟩ := writeCycle_ring false tick 2#3 s
    have hslot : (writeCycle false tick 2#3 s).slot s.widx = s.cnt := by simp [writeCycle_slot, hfall]
    have hcnt : (writeCycle false tick 2#3 s).cnt = s.cnt := by simp [writeCycle_cnt, not_rises_of_falls hfall, hfall]
    exact ⟨_, exec_step_cycle s false tick 2#3, hslot, hwidx.trans (if_pos hfall), hrun false tick,
      hirqEn false tick, hcnt⟩
  case rise =>
    have hcnt : (writeCycle true tick 2#3 s).cnt = 0#8 := by simp [writeCycle_cnt, hrise]
    exact ⟨_, exec_step_cycle s true tick 2#3, hcnt, hrun true tick, hirqEn true tick⟩
  case tick =>
    have hcnt : (writeCycle pin true 2#3 s).cnt = s.cnt + 1#8 := by
      simp [writeCycle_cnt_of_no_event hquiet, hcounting]
    exact ⟨_, exec_step_cycle s pin true 2#3, hcnt, hrun pin true⟩

/-- Without an edge event phase A writes no more than `cnt` and `pin_q`. -/
theorem writeCapture_of_no_event {s : State} {pin : Bool} (h : edgeBit s.irqEn s.pinQ pin = false) (tick : Bool)
    (s' : State) :
    ∃ c, writeCapture pin tick s s' = { s' with cnt := c, pinQ := pin } := by
  rcases writeCapture_cases pin tick s s' with ⟨hr, -⟩ | ⟨hf, -⟩ | ⟨-, -, -, -, e⟩ | ⟨-, -, -, e⟩
  case inl => simp [not_rises_of_no_event h] at hr
  case inr.inl => simp [not_falls_of_no_event h] at hf
  case inr.inr.inl => exact ⟨_, e⟩
  case inr.inr.inr => exact ⟨_, e⟩

/-- With events disabled INIT overrides what phase A may have counted, and TRACK's write stays. -/
theorem writeCycle_init_of_disabled {s : State} (h : s.irqEn = false) (pin tick : Bool) :
    writeCycle pin tick 1#3 s = writeInit s { s with pinQ := pin } := by
  have hquiet : edgeBit s.irqEn s.pinQ pin = false := by rw [h, edgeBit_disabled]
  obtain ⟨c, hcapture⟩ := writeCapture_of_no_event hquiet tick s
  rw [writeCycle, hcapture]
  rfl

/-- Settles O47: INIT's transfer over TRACK's; in every state its `run`, `cnt` and `irq_en`, and the ring as phase A
leaves it. -/
theorem initOverridesTheCaptureMachine : Obligations.InitOverridesTheCaptureMachine := by
  refine ⟨fun s pin tick hoff => ⟨_, exec_step_cycle s pin tick 1#3, ?_⟩,
    fun s pin tick => ⟨_, exec_step_cycle s pin tick 1#3, ?run, ?cnt, ?irqEn, fun hfall => ?pushed, fun hquiet => ?kept⟩⟩
  · rw [writeCycle_init_of_disabled hoff]
    exact writeInit_frame s _
  case run => simp [writeCycle_run]
  case cnt => simp [writeCycle_cnt]
  case irqEn => simp [writeCycle_irqEn]
  case pushed =>
    obtain ⟨-, hwidx, -⟩ := writeCycle_ring pin tick 1#3 s
    exact ⟨by simp [writeCycle_slot, hfall], hwidx.trans (if_pos hfall)⟩
  case kept =>
    obtain ⟨hslots, hwidx, -⟩ := writeCycle_ring_of_not_falls hquiet tick 1#3
    exact ⟨hslots, hwidx⟩

end Sys2Proof.Machine
end

section
/-! PROOF. The encoder and the decoder (30_encoding.md sections 2, 3 and 6) are inverse to each other, and what the
decoder rejects. -/

namespace Sys2Proof.Machine

/-- Settles O3: the round trip of each operation. -/
theorem encodeThenDecodeGivesTheOperation : Obligations.EncodeThenDecodeGivesTheOperation := by
  intro i
  cases i with
  | nop => exact Laws.RoundTrip.nop
  | init => exact Laws.RoundTrip.init
  | stop => exact Laws.RoundTrip.stop
  | getValue => exact Laws.RoundTrip.getValue
  | getMedian => exact Laws.RoundTrip.getMedian
  | rsv5 => exact Laws.RoundTrip.rsv5
  | rsv6 => exact Laws.RoundTrip.rsv6
  | rsv7 => exact Laws.RoundTrip.rsv7
  | rise run tick => exact Laws.RoundTrip.rise run tick
  | fall run tick => exact Laws.RoundTrip.fall run tick
  | tickOff pinQ pin => exact Laws.RoundTrip.tickOff pinQ pin
  | tickLow => exact Laws.RoundTrip.tickLow
  | tickHigh => exact Laws.RoundTrip.tickHigh
  | holdOffStopped pinQ pin tick => exact Laws.RoundTrip.holdOffStopped pinQ pin tick
  | holdOffRunning pinQ pin => exact Laws.RoundTrip.holdOffRunning pinQ pin
  | holdLowStopped tick => exact Laws.RoundTrip.holdLowStopped tick
  | holdLowRunning => exact Laws.RoundTrip.holdLowRunning
  | holdHighStopped tick => exact Laws.RoundTrip.holdHighStopped tick
  | holdHighRunning => exact Laws.RoundTrip.holdHighRunning
  | reset => exact Laws.RoundTrip.reset
  | track pin => exact Laws.RoundTrip.track pin
  | edge pin => exact Laws.RoundTrip.edge pin
  | add v => exact Laws.RoundTrip.add v
  | isFull => exact Laws.RoundTrip.isFull
  | elementAt i => exact Laws.RoundTrip.elementAt i
  | capacity => exact Laws.RoundTrip.capacity
  | snapshot => exact Laws.RoundTrip.snapshot
  | sort4 a0 a1 a2 a3 => exact Laws.RoundTrip.sort4 a0 a1 a2 a3
  | median4 a0 a1 a2 a3 => exact Laws.RoundTrip.median4 a0 a1 a2 a3
  | medianOrZero => exact Laws.RoundTrip.medianOrZero
  | rebase m => exact Laws.RoundTrip.rebase m
  | step rst pin tick cmd => exact Laws.RoundTrip.step rst pin tick cmd

/-- Format ALWAYS reads bit 2 of a word of five bits (R75). -/
theorem decode_always_of_lt {b : BitVec 8} (h : b.toNat < 32) : decode .always b = .ok (.track b[2]) :=
  if_pos h

/-- A stimulus word of six bits is never too wide for format STIM (R72). -/
theorem decode_stim_of_lt {b : BitVec 8} (h : b.toNat < 64) : decode .stim b = .ok (decodeStim (b.setWidth 6)) :=
  if_pos h

/-- Format RST has the one word 1 (R59). -/
theorem decode_rst_one : decode .rst 1#8 = .ok .reset := rfl

theorem decode_rst_zero : decode .rst 0#8 = .error .resetInactive := rfl

theorem decode_int (b : BitVec 8) : decode .int b = .error .internalOnly := rfl

theorem decode_of_tooWide {f : Format} {b : BitVec 8} (hf : f ≠ .int) (h : 2 ^ f.width ≤ b.toNat) :
    decode f b = .error .tooWide := by
  have hwide := Nat.not_lt_of_le h
  cases f with
  | int => exact absurd rfl hf
  | rst => exact if_neg hwide
  | cmd => exact if_neg hwide
  | evt => exact if_neg hwide
  | always => exact if_neg hwide
  | stim => exact if_neg hwide

/-- Everything the decoder can answer: the operation of a word within its format's width, or one of the three
errors. -/
theorem decode_cases (f : Format) (b : BitVec 8) :
    (f = .cmd ∧ b.toNat < 8 ∧ decode f b = .ok (decodeCmd (b.setWidth 3))) ∨
    (f = .evt ∧ b.toNat < 32 ∧ decode f b = .ok (decodeEvent (b.setWidth 5))) ∨
    (f = .always ∧ b.toNat < 32 ∧ decode f b = .ok (.track b[2])) ∨
    (f = .stim ∧ b.toNat < 64 ∧ decode f b = .ok (decodeStim (b.setWidth 6))) ∨
    (f = .rst ∧ b = 1#8 ∧ decode f b = .ok .reset) ∨
    (f = .rst ∧ b = 0#8 ∧ decode f b = .error .resetInactive) ∨
    (f = .int ∧ decode f b = .error .internalOnly) ∨
    (f ≠ .int ∧ 2 ^ f.width ≤ b.toNat ∧ decode f b = .error .tooWide) := by
  by_cases hf : f = .int
  · subst hf
    simp [decode_int]
  · by_cases hwide : 2 ^ f.width ≤ b.toNat
    · simp [hf, hwide, decode_of_tooWide hf hwide]
    · have hfits := Nat.lt_of_not_le hwide
      cases f with
      | int => exact absurd rfl hf
      | cmd => exact .inl ⟨rfl, hfits, decode_cmd_of_lt hfits⟩
      | evt => exact .inr (.inl ⟨rfl, hfits, decode_evt_of_lt hfits⟩)
      | always => exact .inr (.inr (.inl ⟨rfl, hfits, decode_always_of_lt hfits⟩))
      | stim => exact .inr (.inr (.inr (.inl ⟨rfl, hfits, decode_stim_of_lt hfits⟩)))
      | rst =>
        have hbit : b = 0#8 ∨ b = 1#8 := by
          simp only [← BitVec.toNat_inj, BitVec.toNat_ofNat]
          simp only [Format.width] at hfits
          omega
        rcases hbit with rfl | rfl
        · simp [decode_rst_zero]
        · simp [decode_rst_one]

theorem wellFormed_decodeCmd (w : BitVec 3) : (decodeCmd w).wellFormed = true := by
  unfold decodeCmd
  split <;> rfl

theorem wellFormed_decodeEvent (v : BitVec 5) : (decodeEvent v).wellFormed = true := by
  unfold decodeEvent
  split <;> rfl

/-- Settles O5: the operation of each format's words. -/
theorem decodedOperationsAreWellFormed : Obligations.DecodedOperationsAreWellFormed := by
  intro f b i h
  rcases decode_cases f b with ⟨-, -, e⟩ | ⟨-, -, e⟩ | ⟨-, -, e⟩ | ⟨-, -, e⟩ | ⟨-, -, e⟩ | ⟨-, -, e⟩ | ⟨-, e⟩ |
    ⟨-, -, e⟩ <;> cases e.symm.trans h
  case inl => exact wellFormed_decodeCmd _
  case inr.inl => exact wellFormed_decodeEvent _
  case inr.inr.inl => rfl
  case inr.inr.inr.inl => rfl
  case inr.inr.inr.inr.inl => rfl

/-- A byte with no bit from position `n` on is its own low `n` bits. -/
theorem setWidth_setWidth_of_lt {b : BitVec 8} {n : Nat} (h : b.toNat < 2 ^ n) :
    (b.setWidth n).setWidth 8 = b := by
  apply BitVec.eq_of_toNat_eq
  rw [BitVec.toNat_setWidth, BitVec.toNat_setWidth, Nat.mod_eq_of_lt h, Nat.mod_eq_of_lt b.isLt]

/-- Each of the eight codes is its command's word (R65). -/
theorem encode_decodeCmd (w : BitVec 3) : encode (decodeCmd w) = some (.cmd, w.setWidth 8) := by
  revert w
  decide

/-- Each of the 32 vectors is the word of the operation it selects, the free bits being the operands (R68). -/
theorem encode_decodeEvent (v : BitVec 5) : encode (decodeEvent v) = some (.evt, v.setWidth 8) := by
  revert v
  decide

/-- A stimulus word is packed from its own fields (R72). -/
theorem stimWord_of_fields (w : StimWord) : stimWord (rstIn w) (pinIn w) (tickIn w) (cmdIn w) = w := by
  revert w
  decide

theorem encode_decodeStim (w : StimWord) : encode (decodeStim w) = some (.stim, w.setWidth 8) := by
  have hpacked : encode (decodeStim w) =
      some (.stim, (stimWord (rstIn w) (pinIn w) (tickIn w) (cmdIn w)).setWidth 8) := rfl
  rw [hpacked, stimWord_of_fields]

/-- Settles O4: a word that fits its format is its low bits, which its operation encodes to. -/
theorem decodeThenEncodeGivesTheWord : Obligations.DecodeThenEncodeGivesTheWord := by
  intro f b i hf h
  rcases decode_cases f b with ⟨rfl, hb, e⟩ | ⟨rfl, hb, e⟩ | ⟨rfl, -, -⟩ | ⟨rfl, hb, e⟩ | ⟨rfl, rfl, e⟩ | ⟨-, -, e⟩ |
    ⟨-, e⟩ | ⟨-, -, e⟩
  case inr.inr.inl => exact absurd rfl hf
  all_goals cases e.symm.trans h
  case inl => rw [encode_decodeCmd, setWidth_setWidth_of_lt hb]
  case inr.inl => rw [encode_decodeEvent, setWidth_setWidth_of_lt hb]
  case inr.inr.inr.inl => rw [encode_decodeStim, setWidth_setWidth_of_lt hb]
  case inr.inr.inr.inr.inl => rfl

/-- A rejection is exactly one of the three errors of `decode_cases`, whose conditions exclude each other. -/
theorem decode_eq_error_iff (f : Format) (b : BitVec 8) (e : DecodeError) :
    decode f b = .error e ↔
      (f = .int ∧ e = .internalOnly) ∨ (f ≠ .int ∧ 2 ^ f.width ≤ b.toNat ∧ e = .tooWide) ∨
        (f = .rst ∧ b = 0#8 ∧ e = .resetInactive) := by
  constructor
  case mp =>
    intro h
    rcases decode_cases f b with ⟨-, -, hd⟩ | ⟨-, -, hd⟩ | ⟨-, -, hd⟩ | ⟨-, -, hd⟩ | ⟨-, -, hd⟩ | ⟨hf, hb, hd⟩ |
      ⟨hf, hd⟩ | ⟨hf, hb, hd⟩ <;> cases hd.symm.trans h
    case inr.inr.inr.inr.inr.inl => exact .inr (.inr ⟨hf, hb, rfl⟩)
    case inr.inr.inr.inr.inr.inr.inl => exact .inl ⟨hf, rfl⟩
    case inr.inr.inr.inr.inr.inr.inr => exact .inr (.inl ⟨hf, hb, rfl⟩)
  case mpr =>
    rintro (⟨rfl, rfl⟩ | ⟨hf, hwide, rfl⟩ | ⟨rfl, rfl, rfl⟩)
    · exact decode_int b
    · exact decode_of_tooWide hf hwide
    · exact decode_rst_zero

/-- Settles O6: `decode_eq_error_iff`, its names the model's own. -/
theorem decoderRejectsByName : Obligations.DecoderRejectsByName := decode_eq_error_iff

end Sys2Proof.Machine
end

section
/-! PROOF. A step and its stimulus word (30_encoding.md R72, 44_cycle_step.md R121): the oldest scheduled one, a free
input, or the one a placed table word schedules. -/

namespace Sys2Proof.Machine

/-- A step takes the oldest scheduled word. -/
theorem step_of_stim {s : State} {w : StimWord} {rest : List StimWord} (h : s.stim = w :: rest) :
    step s = exec (decodeStim w) { s with stim := rest, cycle := s.cycle + 1 } := by
  rw [step, fetchWord, takeWord, h]
  rfl

/-- With nothing scheduled a step takes the free input of its cycle. -/
theorem step_of_stim_nil {s : State} (h : s.stim = []) :
    step s = exec (decodeStim (Config.freeInput s.cycle)) { s with cycle := s.cycle + 1 } := by
  have hfetch : fetchWord s = Config.freeInput s.cycle := by rw [fetchWord, h]
  rw [step, hfetch, takeWord, h, List.tail_nil, ← h]

/-- A scheduled word packs the inputs of its cycle. -/
theorem step_of_stim_stimWord {s : State} {rst pin tick : Bool} {cmd : BitVec 3} {rest : List StimWord}
    (h : s.stim = stimWord rst pin tick cmd :: rest) :
    step s = exec (.step rst pin tick cmd) { s with stim := rest, cycle := s.cycle + 1 } := by
  rw [step_of_stim h, Laws.RoundTrip.decodeStim_stimWord]

/-- Settles O49: the oldest word by its four fields, the free input where none is scheduled. -/
theorem stepRunsTheFetchedWord : Obligations.StepRunsTheFetchedWord :=
  ⟨fun _ _ _ _ _ _ => step_of_stim_stimWord, fun _ => step_of_stim_nil⟩

/-- A command alone is phase B from a state onto itself. -/
theorem exec_decodeCmd (cmd : BitVec 3) (s : State) : exec (decodeCmd cmd) s = .next (writeCommand cmd s s) := by
  unfold writeCommand decodeCmd
  split <;> rfl

/-- A capture operation alone writes what it writes in a cycle. -/
theorem exec_decodeEvent (v : BitVec 5) (s : State) :
    exec (decodeEvent v) s = .next (writeSelected (decodeEvent v) s s) := by
  unfold decodeEvent
  split <;> rfl

/-- The table's three-bit words are the command codes. -/
theorem decodeTableWord_cmd (cmd : BitVec 3) : decodeTableWord 3 cmd.toNat = some (decodeCmd cmd) := by
  revert cmd
  decide

/-- The table's five-bit words are the event vectors. -/
theorem decodeTableWord_evt (v : BitVec 5) : decodeTableWord 5 v.toNat = some (decodeEvent v) := by
  revert v
  decide

/-- A word of at most eight bits is not changed by its reading as a byte. -/
theorem setWidth_ofNat_toNat {n : Nat} (hn : n ≤ 8) (v : BitVec n) :
    (BitVec.ofNat 8 v.toNat).setWidth n = v := by
  rw [BitVec.ofNat_toNat, BitVec.setWidth_setWidth_of_le v hn, BitVec.setWidth_eq]

/-- A placed command is scheduled with the pin as it was and no tick. -/
theorem withFetchWord_cmd (s : State) (cmd : BitVec 3) :
    s.withFetchWord 3 cmd.toNat = { s with stim := stimWord false s.pinQ false cmd :: s.stim } := by
  have hbyte : cmd.toNat < 256 := Nat.lt_trans cmd.isLt (by decide)
  have hplace : s.withFetchWord 3 cmd.toNat = placeWord .cmd (BitVec.ofNat 8 cmd.toNat) s := if_pos hbyte
  rw [hplace, placeWord, setWidth_ofNat_toNat (by decide) cmd]

/-- A placed event vector sets the register bits it is assembled from and schedules the pin and the tick. -/
theorem withFetchWord_evt (s : State) (v : BitVec 5) :
    s.withFetchWord 5 v.toNat = { s with
      irqEn := v[4], pinQ := v[3], run := v[1], stim := stimWord false v[2] v[0] 0#3 :: s.stim } := by
  have hbyte : v.toNat < 256 := Nat.lt_trans v.isLt (by decide)
  have hplace : s.withFetchWord 5 v.toNat = placeWord .evt (BitVec.ofNat 8 v.toNat) s := if_pos hbyte
  have hbit {i : Nat} (hi : i < 5) : (BitVec.ofNat 8 v.toNat)[i]'(by omega) = v[i] := by
    simp [BitVec.getElem_eq_testBit_toNat, Nat.mod_eq_of_lt hbyte]
  rw [hplace, placeWord, hbit, hbit, hbit, hbit, hbit]
  rfl

/-- An unchanged pin without a tick gives phase A nothing to do. -/
theorem writeCapture_pinQ_no_tick (s : State) : writeCapture s.pinQ false s s = s := by
  have hquiet := edgeBit_unchanged s.irqEn s.pinQ
  rcases writeCapture_cases s.pinQ false s s with ⟨hr, -⟩ | ⟨hf, -⟩ | ⟨-, -, -, ht, -⟩ | ⟨-, -, -, e⟩
  case inl => simp [not_rises_of_no_event hquiet] at hr
  case inr.inl => simp [not_falls_of_no_event hquiet] at hf
  case inr.inr.inl => simp at ht
  case inr.inr.inr => exact e

/-- A placed command's step is the command alone. -/
theorem step_withFetchWord_cmd (s : State) (cmd : BitVec 3) :
    step (s.withFetchWord 3 cmd.toNat) = exec (decodeCmd cmd) { s with cycle := s.cycle + 1 } := by
  rw [withFetchWord_cmd, step_of_stim_stimWord rfl, exec_step_cycle, exec_decodeCmd, writeCycle]
  exact congrArg (fun a => Host.Outcome.next (writeCommand cmd { s with cycle := s.cycle + 1 } a))
    (writeCapture_pinQ_no_tick { s with cycle := s.cycle + 1 })

/-- A placed event vector's step is its capture operation, TRACK and NOP. -/
theorem step_withFetchWord_evt (s : State) (v : BitVec 5) :
    ∃ u, exec (decodeEvent v)
        { s with irqEn := v[4], pinQ := v[3], run := v[1], cycle := s.cycle + 1 } = .next u ∧
      step (s.withFetchWord 5 v.toNat) = .next { u with pinQ := v[2], rvalid := false } := by
  refine ⟨_, exec_decodeEvent v _, ?_⟩
  rw [withFetchWord_evt, step_of_stim_stimWord rfl, exec_step_cycle, writeCycle, writeCapture, eventVector,
    ← eq_eventWord_bits v]
  rfl

/-- Settles O50: the placed words' steps; the reset word's is RESET. -/
theorem placedWordsRunTheirOperation : Obligations.PlacedWordsRunTheirOperation :=
  ⟨fun s cmd => ⟨decodeTableWord_cmd cmd, step_withFetchWord_cmd s cmd⟩,
    fun s v => ⟨decodeTableWord_evt v, step_withFetchWord_evt s v⟩,
    fun s => ⟨rfl, by
      have hplace : s.withFetchWord 1 1 = { s with stim := stimWord true s.pinQ false 0#3 :: s.stim } := rfl
      rw [hplace, step_of_stim_stimWord rfl, exec_step_reset, exec_reset]⟩⟩

end Sys2Proof.Machine
end

section
/-! PROOF. What a cycle leaves of each field: its later writer's value (44_cycle_step.md R122, R124), the capture
operation and the command each as it is alone, and what a read command or a disabled pin change does not touch. -/

namespace Sys2Proof.Machine

/-- Phase B in one record: INIT's and STOP's control bits, the read commands' `result` and `snap`, and `rvalid`. -/
theorem writeCommand_eq (cmd : BitVec 3) (s s' : State) :
    writeCommand cmd s s' = { s' with
      irqEn := if cmd = 1#3 then true else if cmd = 2#3 then false else s'.irqEn
      run := if cmd = 1#3 ∨ cmd = 2#3 then false else s'.run
      cnt := if cmd = 1#3 then 0#8 else s'.cnt
      snap := if (cmd = 3#3 ∨ cmd = 4#3) ∧ s.full = true then snapshotOf s else s'.snap
      result := if cmd = 3#3 then rebase (medianOrZero s) else if cmd = 4#3 then medianOrZero s else s'.result
      rvalid := decide (cmd = 3#3 ∨ cmd = 4#3)
      inited := if cmd = 1#3 then true else s'.inited
      reinit := if cmd = 1#3 then reinitAfterInit s.inited s'.reinit else s'.reinit } := by
  rcases writeCommand_cases cmd s s' with ⟨rfl, e⟩ | ⟨rfl, e⟩ | ⟨rfl, e⟩ | ⟨rfl, e⟩ | ⟨h1, h2, h3, h4, e⟩ <;> rw [e]
  case inl => simp [writeInit]
  case inr.inl => simp [writeStop]
  case inr.inr.inl => simp [writeGetValue, writeMedianOrZero_eq, writeResult]
  case inr.inr.inr.inl => simp [writeGetMedian, writeMedianOrZero_eq, writeResult]
  case inr.inr.inr.inr => simp [writeNop, h1, h2, h3, h4]

/-- `inited` and `reinit` after a cycle, phase A writing neither. -/
theorem writeCycle_inited_reinit (pin tick : Bool) (cmd : BitVec 3) (s : State) :
    (writeCycle pin tick cmd s).inited = (if cmd = 1#3 then true else s.inited) ∧
    (writeCycle pin tick cmd s).reinit = (if cmd = 1#3 then reinitAfterInit s.inited s.reinit else s.reinit) := by
  obtain ⟨-, -, -, -, -, -, -, -, -, -, hinited, hreinit, -⟩ := writeCapture_fields pin tick s s
  rw [writeCycle, writeCommand_eq, hinited, hreinit]
  exact ⟨rfl, rfl⟩

/-- A cycle keeps the scheduled words, the cycle count and the draw. -/
theorem writeCycle_stim_cycle_draw (pin tick : Bool) (cmd : BitVec 3) (s : State) :
    (writeCycle pin tick cmd s).stim = s.stim ∧ (writeCycle pin tick cmd s).cycle = s.cycle ∧
    (writeCycle pin tick cmd s).draw = s.draw := by
  obtain ⟨-, -, -, -, hdraw, hstim, hcycle, -⟩ := writeCommand_frame cmd s (writeCapture pin tick s s)
  obtain ⟨-, -, -, -, -, -, -, -, -, -, -, -, -, hdraw', hstim', hcycle'⟩ := writeCapture_fields pin tick s s
  exact ⟨hstim.trans hstim', hcycle.trans hcycle', hdraw.trans hdraw'⟩

/-- Settles O43: the laws of the seven fields. -/
theorem laterPhaseOverridesPerField : Obligations.LaterPhaseOverridesPerField := by
  intro s pin tick cmd
  obtain ⟨hinited, -⟩ := writeCycle_inited_reinit pin tick cmd s
  obtain ⟨-, hwidx, -⟩ := writeCycle_ring pin tick cmd s
  have hrvalid : (writeCycle pin tick cmd s).rvalid = if cmd = 3#3 ∨ cmd = 4#3 then true else false := by
    rw [writeCycle_rvalid, Bool.if_true_left, Bool.or_false]
  exact ⟨_, exec_step_cycle s pin tick cmd, writeCycle_irqEn pin tick cmd s, writeCycle_run pin tick cmd s,
    writeCycle_cnt pin tick cmd s, writeCycle_pinQ pin tick cmd s, hinited, hrvalid, hwidx⟩

/-- A selected capture operation writes no more than the accumulator and the ring. -/
theorem writeSelected_decodeEvent_frame (v : BitVec 5) (s s' : State) :
    writeSelected (decodeEvent v) s s' = { s' with
      run := (writeSelected (decodeEvent v) s s').run, cnt := (writeSelected (decodeEvent v) s s').cnt
      slots := (writeSelected (decodeEvent v) s s').slots, widx := (writeSelected (decodeEvent v) s s').widx
      full := (writeSelected (decodeEvent v) s s').full } := by
  unfold decodeEvent
  split <;> rfl

/-- Settles O44: phase B over the capture operation's writes, of which INIT and STOP override `run` and INIT `cnt`. -/
theorem cycleRunsTheSelectedOperations : Obligations.CycleRunsTheSelectedOperations := by
  intro s a b t pin tick cmd ha hb ht
  cases (exec_decodeEvent _ s).symm.trans ha
  cases (exec_decodeCmd cmd s).symm.trans hb
  cases (exec_step_cycle s pin tick cmd).symm.trans ht
  have hcapture : writeCapture pin tick s s =
      writeTrack pin (writeSelected (decodeEvent (eventVector s pin tick)) s s) := rfl
  rw [writeCycle, hcapture, writeSelected_decodeEvent_frame, writeCommand_eq, writeCommand_eq]
  by_cases h1 : cmd = 1#3
  · simp [h1, writeTrack]
  · by_cases h2 : cmd = 2#3 <;> simp [h1, h2, writeTrack]

/-- Settles O37: phase B of a read command and of NOP, after the one phase A, write no other field differently. -/
theorem readCommandsDisturbNothing : Obligations.ReadCommandsDisturbNothing := by
  refine fun s pin tick cmd hcmd => ⟨_, _, exec_step_cycle s pin tick cmd, exec_step_cycle s pin tick 0#3, ?same, ?irqEn⟩
  case same =>
    rw [writeCycle, writeCycle, writeCommand_eq, writeCommand_eq]
    rcases hcmd with rfl | rfl <;> simp
  case irqEn => rcases hcmd with rfl | rfl <;> simp [writeCycle_irqEn]

/-- Without an edge event phase A counts the tick of a running accumulator and follows the pin. -/
theorem writeCapture_eq_of_no_event {s : State} {pin : Bool} (h : edgeBit s.irqEn s.pinQ pin = false) (tick : Bool) :
    writeCapture pin tick s s =
      { s with cnt := if s.run && tick then s.cnt + 1#8 else s.cnt, pinQ := pin } := by
  obtain ⟨c, e⟩ := writeCapture_of_no_event h tick s
  obtain ⟨-, -, hcnt, -⟩ := writeCapture_fields pin tick s s
  rw [not_rises_of_no_event h, not_falls_of_no_event h] at hcnt
  rw [e] at hcnt ⊢
  exact congrArg (fun c => { s with cnt := c, pinQ := pin }) hcnt

/-- Settles O16: with events disabled neither pin level is an event, and no command reads `pin_q`. -/
theorem disabledPinChangeLeavesNoTrace : Obligations.DisabledPinChangeLeavesNoTrace := by
  intro s tick cmd hoff
  have hquiet (pin : Bool) : edgeBit s.irqEn s.pinQ pin = false := by rw [hoff, edgeBit_disabled]
  refine ⟨_, _, exec_step_cycle s true tick cmd, exec_step_cycle s false tick cmd, ?_, writeCycle_pinQ false tick cmd s⟩
  rw [writeCycle, writeCycle, writeCapture_eq_of_no_event (hquiet true), writeCapture_eq_of_no_event (hquiet false),
    writeCommand_eq, writeCommand_eq]

/-- Settles O32: a reset clears the mark, and INIT after INIT sets it. -/
theorem secondInitMarksTheRun : Obligations.SecondInitMarksTheRun := by
  intro s t hstep
  rcases step_inversion hstep with ⟨hrst, rfl⟩ | ⟨hrst, rfl⟩
  · simp [hrst]
  · obtain ⟨-, hreinit⟩ := writeCycle_inited_reinit (pinIn (fetchWord s)) (tickIn (fetchWord s)) (cmdIn (fetchWord s))
      (takeWord s)
    rw [hreinit, hrst]
    by_cases hinit : cmdIn (fetchWord s) = 1#3 <;> simp [hinit, reinitAfterInit]

/-- After RESET every slot reads as the next draw's free value, none being listed. -/
theorem writeReset_slot (s : State) (i : SlotIdx) : (writeReset s).slot i = Config.slotReset (s.draw + 1) i := rfl

/-- Settles O41: a reset step is `writeReset` of the state whose word is taken. -/
theorem resetDrawsTheUnspecifiedContentsAfresh : Obligations.ResetDrawsTheUnspecifiedContentsAfresh := by
  intro s t hstep hrst
  rcases step_inversion hstep with ⟨-, rfl⟩ | ⟨hcycle, -⟩
  · exact ⟨writeReset_slots _, writeReset_draw _, writeReset_slot _, writeReset_snap _, writeReset_reinit _,
      writeReset_stim _, writeReset_cycle _⟩
  · simp [hrst] at hcycle

end Sys2Proof.Machine
end

section
/-! PROOF. The ring under the operations that do not push (20_memory.md R44, 41_ringbuffer.md R94), and `full` (10_state.md
R26). -/

namespace Sys2Proof.Machine

/-- An operation that is not one of the ring's writers leaves the ring's fields, and the draw behind the unlisted
slots. -/
theorem exec_of_leavesRing {i : Instr} {s t : State} (hi : leavesRing i = true) (h : exec i s = .next t) :
    t.slots = s.slots ∧ t.widx = s.widx ∧ t.full = s.full ∧ t.draw = s.draw := by
  cases i with
  | fall run tick => cases hi
  | add v => cases hi
  | reset => cases hi
  | step rst pin tick cmd => cases hi
  | getValue =>
    cases (exec_getValue s).symm.trans h
    simp
  | getMedian =>
    cases (exec_getMedian s).symm.trans h
    simp
  | medianOrZero =>
    cases (exec_medianOrZero s).symm.trans h
    simp
  | _ =>
    cases h
    exact ⟨rfl, rfl, rfl, rfl⟩

/-- What a slot reads as is determined by the ring storage and the draw. -/
theorem slot_congr {s t : State} (hslots : t.slots = s.slots) (hdraw : t.draw = s.draw) (i : SlotIdx) :
    t.slot i = s.slot i := by
  rw [State.slot, State.slot, hslots, hdraw]

/-- Settles O19: the three fields by the arms of `exec`, and with the draw kept every slot. -/
theorem onlyRingWritersTouchTheRing : Obligations.OnlyRingWritersTouchTheRing := by
  intro i s t hi h
  obtain ⟨hslots, hwidx, hfull, hdraw⟩ := exec_of_leavesRing hi h
  exact ⟨hslots, hwidx, hfull, slot_congr hslots hdraw⟩

/-- Settles O20: without a FALL phase A pushes nothing, and no command writes the ring. -/
theorem cycleWithoutFallKeepsTheRing : Obligations.CycleWithoutFallKeepsTheRing := by
  intro s pin tick cmd hfall
  obtain ⟨-, hwidx, hfull⟩ := writeCycle_ring_of_not_falls hfall tick cmd
  exact ⟨_, exec_step_cycle s pin tick cmd, hwidx, hfull, fun a => by simp [writeCycle_slot, hfall]⟩

/-- Settles O21: a cycle writes `full` by a push alone. -/
theorem fullIsStickyUntilReset : Obligations.FullIsStickyUntilReset := by
  intro s t hstep
  rcases step_inversion hstep with ⟨hrst, rfl⟩ | ⟨hrst, rfl⟩
  · simp [hrst]
  · obtain ⟨-, -, hfull⟩ := writeCycle_ring (pinIn (fetchWord s)) (tickIn (fetchWord s)) (cmdIn (fetchWord s)) (takeWord s)
    rw [hfull]
    by_cases hfall : s.falls (pinIn (fetchWord s)) = true <;> simp [hrst, hfall, fullAfterAdd_eq_true_iff]

end Sys2Proof.Machine
end

section
/-! PROOF. The inferences 42_median.md and 43_decoder_api.md draw for the median and the re-based value: the closed form
R103, the rejection of one outlier R107, and the monotonicity of REBASE. -/

namespace Sys2Proof.Machine

/-- The compare-exchanges of the sorting network that end on its wire 2. -/
theorem median4_eq_upper (a0 a1 a2 a3 : Sample) :
    median4 a0 a1 a2 a3 =
      upper (lower (upper a0 a1) (upper a2 a3)) (upper (lower a0 a1) (lower a2 a3)) := rfl

/-- Settles O25: in the naturals the compare-exchanges that end on wire 2 are the closed form's minima and maxima. -/
theorem median4HasTheClosedForm : Obligations.Median4HasTheClosedForm := by
  intro a0 a1 a2 a3
  simp only [median4_eq_upper, toNat_upper, toNat_lower, medianClosedForm]

/-- Three equal values among four reach the middle of the sorted form on either side of the fourth (R107). -/
theorem median4_of_perm_three_equal {x y a0 a1 a2 a3 : Sample} (h : [a0, a1, a2, a3].Perm [x, x, x, y]) :
    median4 a0 a1 a2 a3 = x := by
  rcases Nat.le_total x.toNat y.toNat with hxy | hyx
  · have hsorted : SortedFormOf #v[x, x, x, y] a0 a1 a2 a3 := ⟨Nat.le_refl _, Nat.le_refl _, hxy, h.symm⟩
    exact median4_eq_of_sortedForm hsorted
  · have hfront : [y, x, x, x].Perm [x, x, x, y] := List.perm_append_comm (l₁ := [y])
    have hsorted : SortedFormOf #v[y, x, x, x] a0 a1 a2 a3 :=
      ⟨hyx, Nat.le_refl _, Nat.le_refl _, hfront.trans h.symm⟩
    exact median4_eq_of_sortedForm hsorted

/-- Ascending values are their own sorted form. -/
theorem median4_of_ascending {a0 a1 a2 a3 : Sample} (h01 : a0.toNat ≤ a1.toNat) (h12 : a1.toNat ≤ a2.toNat)
    (h23 : a2.toNat ≤ a3.toNat) : median4 a0 a1 a2 a3 = a2 := by
  have hsorted : SortedFormOf #v[a0, a1, a2, a3] a0 a1 a2 a3 := ⟨h01, h12, h23, .refl _⟩
  exact median4_eq_of_sortedForm hsorted

/-- Settles O26: an extreme moved outward leaves the values ascending, and element 2 in its place. -/
theorem median4RejectsOneOutlier : Obligations.Median4RejectsOneOutlier := by
  refine ⟨fun x y a0 a1 a2 a3 => median4_of_perm_three_equal, fun v a0 a1 a2 a3 z hv => ?_⟩
  rw [median4_eq_of_sortedForm hv]
  obtain ⟨h01, h12, h23, -⟩ := hv
  exact ⟨fun hlow => median4_of_ascending (Nat.le_trans hlow h01) h12 h23,
    fun hhigh => median4_of_ascending h01 h12 (Nat.le_trans h23 hhigh)⟩

/-- Settles O35: REBASE is the subtraction of the naturals. -/
theorem rebaseIsMonotonic : Obligations.RebaseIsMonotonic := by
  intro zr m1 m2
  rw [← BitVec.toNat_inj, toNat_rebaseBy, toNat_rebaseBy]
  exact ⟨fun hle => Nat.sub_le_sub_right hle zr.toNat, Nat.sub_eq_zero_iff_le,
    fun habove hlt => Nat.sub_lt_sub_right (Nat.le_of_lt habove) hlt⟩

end Sys2Proof.Machine
end

section
/-! PROOF. The invariants of the accumulator (10_state.md R39, R166): each step keeps them. -/

namespace Sys2Proof.Machine

/-- A high pin that does not rise while events are enabled was high before. -/
theorem pinQ_of_not_rises {s : State} (hrise : s.rises true = false) (hon : s.irqEn = true) : s.pinQ = true := by
  simpa [State.rises, hon] using hrise

/-- With events enabled and a high `pin_q` a cycle that does not fall has a high pin. -/
theorem pin_of_not_falls {s : State} {pin : Bool} (hfall : s.falls pin = false) (hon : s.irqEn = true)
    (hhigh : s.pinQ = true) : pin = true := by
  simpa [State.falls, hon, hhigh] using hfall

/-- A cycle after which the accumulator runs: it rose, or ran on without a FALL, and was neither initialised nor
stopped. -/
theorem writeCycle_run_eq_true {pin tick : Bool} {cmd : BitVec 3} {s : State}
    (h : (writeCycle pin tick cmd s).run = true) :
    (cmd ≠ 1#3 ∧ cmd ≠ 2#3) ∧ (s.rises pin = true ∨ s.falls pin = false ∧ s.run = true) := by
  rw [writeCycle_run] at h
  by_cases hcmd : cmd = 1#3 ∨ cmd = 2#3
  · rw [if_pos hcmd] at h
    cases h
  · refine ⟨not_or.mp hcmd, ?_⟩
    rw [if_neg hcmd] at h
    by_cases hrise : s.rises pin = true
    · exact .inl hrise
    · by_cases hfall : s.falls pin = true
      · simp [hrise, hfall] at h
      · simp only [hrise, hfall, Bool.false_eq_true, if_false] at h
        exact .inr ⟨Bool.eq_false_iff.mpr hfall, h⟩

/-- A running accumulator falls when the pin does, and both RISE and running on need events enabled. -/
theorem runningMeansHigh_writeCycle {s : State} (hs : RunningMeansHigh s) (pin tick : Bool) (cmd : BitVec 3) :
    RunningMeansHigh (writeCycle pin tick cmd s) := by
  intro hrun
  obtain ⟨⟨h1, h2⟩, hwhy⟩ := writeCycle_run_eq_true hrun
  rw [writeCycle_irqEn, if_neg h1, if_neg h2, writeCycle_pinQ]
  rcases hwhy with hrise | ⟨hfall, hran⟩
  · obtain ⟨hon, -, hpin⟩ := rises_iff.mp hrise
    exact ⟨hon, hpin⟩
  · obtain ⟨hon, hhigh⟩ := hs hran
    exact ⟨hon, pin_of_not_falls hfall hon hhigh⟩

/-- Settles O51: after a reset nothing runs; a cycle by `runningMeansHigh_writeCycle`. -/
theorem stepKeepsRunningMeansHigh : Obligations.StepKeepsRunningMeansHigh := by
  intro s t hs hstep
  rcases step_inversion hstep with ⟨-, rfl⟩ | ⟨-, rfl⟩
  · intro hrun
    simp at hrun
  · exact runningMeansHigh_writeCycle (s := takeWord s) hs _ _ _

/-- Under a high pin a stopped accumulator was stopped by INIT, which zeroes it, or by STOP, which disables events, or it
was stopped under a high pin before. -/
theorem idleHighHoldsZero_writeCycle {s : State} (hs : IdleHighHoldsZero s) (pin tick : Bool) (cmd : BitVec 3) :
    IdleHighHoldsZero (writeCycle pin tick cmd s) := by
  intro hon hstopped hpin
  rw [writeCycle_pinQ] at hpin
  subst hpin
  rw [writeCycle_cnt]
  by_cases h1 : cmd = 1#3
  · rw [if_pos h1]
  have h2 : cmd ≠ 2#3 := by
    intro h2
    simp [writeCycle_irqEn, h2] at hon
  have hfall : s.falls true = false := by simp [State.falls]
  rw [writeCycle_irqEn, if_neg h1, if_neg h2] at hon
  by_cases hrise : s.rises true = true
  · simp [hrise]
  · have hrise' := Bool.eq_false_iff.mpr hrise
    have hidle : s.run = false := by simpa [writeCycle_run, h1, h2, hrise', hfall] using hstopped
    have hzero : s.cnt = 0#8 := hs hon hidle (pinQ_of_not_rises hrise' hon)
    simp [h1, hrise', hfall, hidle, hzero]

/-- Settles O52: a reset state has events disabled; a FALL pushes the count, which the invariant says is 0. -/
theorem stepKeepsIdleHighHoldsZero : Obligations.StepKeepsIdleHighHoldsZero := by
  refine ⟨fun s t hs hstep => ?_, fun s tick cmd hs hfall hidle => ⟨_, exec_step_cycle s false tick cmd, ?_⟩⟩
  · rcases step_inversion hstep with ⟨-, rfl⟩ | ⟨-, rfl⟩
    · intro hon
      simp at hon
    · exact idleHighHoldsZero_writeCycle (s := takeWord s) hs _ _ _
  · obtain ⟨hon, hhigh, -⟩ := falls_iff.mp hfall
    rw [writeCycle_slot, if_pos ⟨hfall, rfl⟩, hs hon hidle hhigh]

end Sys2Proof.Machine
end

section
/-! PROOF. The shape of the ring storage (10_state.md R37, R38, 20_memory.md R49) and its canonical form (log entry 11). -/

namespace Sys2Proof.Machine

/-- A write above every listed address lists one more cell at the end. -/
theorem Memory.write_of_forall_lt {m : Memory} {a : Nat} (v : Sample) (h : ∀ b ∈ m.map Prod.fst, b < a) :
    Memory.write m a v = m ++ [(a, v)] := by
  induction m with
  | nil => rfl
  | cons c m ih =>
    obtain ⟨b, w⟩ := c
    rw [List.map_cons, List.forall_mem_cons] at h
    obtain ⟨hb, hm⟩ := h
    rw [Memory.write, if_neg (Nat.lt_asymm hb), if_neg (Nat.ne_of_gt hb), ih hm, List.cons_append]

/-- A write at a listed address of a rising list lists no other address. -/
theorem Memory.map_fst_write_of_mem {m : Memory} {a : Nat} (v : Sample) (hm : (m.map Prod.fst).Pairwise (· < ·))
    (ha : a ∈ m.map Prod.fst) : (Memory.write m a v).map Prod.fst = m.map Prod.fst := by
  induction m with
  | nil => cases ha
  | cons c m ih =>
    obtain ⟨b, w⟩ := c
    rw [List.map_cons, List.pairwise_cons] at hm
    obtain ⟨hb, hm⟩ := hm
    rw [List.map_cons, List.mem_cons] at ha
    by_cases hab : a = b
    · rw [hab, Memory.write, if_neg (Nat.lt_irrefl b), if_pos rfl]
      rfl
    · have hmem := ha.resolve_left hab
      rw [Memory.write, if_neg (Nat.lt_asymm (hb a hmem)), if_neg hab, List.map_cons, ih hm hmem, List.map_cons]

/-- The canonical form as a statement about the listed addresses. -/
theorem Memory.risingFrom_iff {lo : Nat} {m : Memory} :
    Memory.risingFrom lo m = true ↔
      (m.map Prod.fst).Pairwise (· < ·) ∧ ∀ a ∈ m.map Prod.fst, lo ≤ a ∧ a < 4 := by
  induction m generalizing lo with
  | nil => simp [Memory.risingFrom]
  | cons c m ih =>
    obtain ⟨b, w⟩ := c
    simp only [Memory.risingFrom, Bool.and_eq_true, decide_eq_true_eq, ih, List.map_cons, List.pairwise_cons,
      List.forall_mem_cons]
    constructor
    · rintro ⟨⟨hlo, hb⟩, hm, hrest⟩
      exact ⟨⟨fun a ha => (hrest a ha).1, hm⟩, ⟨hlo, hb⟩,
        fun a ha => ⟨Nat.le_trans hlo (Nat.le_of_lt (hrest a ha).1), (hrest a ha).2⟩⟩
    · rintro ⟨⟨hlt, hm⟩, ⟨hlo, hb⟩, hrest⟩
      exact ⟨⟨hlo, hb⟩, hm, fun a ha => ⟨hlt a ha, (hrest a ha).2⟩⟩

/-- The first addresses in order are a canonical list. -/
theorem Memory.wf_of_map_fst_eq_range {m : Memory} {n : Nat} (hn : n ≤ 4) (h : m.map Prod.fst = List.range n) :
    Memory.wf m = true := by
  rw [Memory.wf, Memory.risingFrom_iff, h]
  exact ⟨List.pairwise_lt_range, fun a ha => ⟨Nat.zero_le a, Nat.lt_of_lt_of_le (List.mem_range.mp ha) hn⟩⟩

theorem wf_of_ringShape {s : State} (h : RingShape s) : Memory.wf s.slots = true := by
  by_cases hfull : s.full = true
  · exact Memory.wf_of_map_fst_eq_range (Nat.le_refl 4) (h.trans (if_pos hfull))
  · exact Memory.wf_of_map_fst_eq_range (Nat.le_of_lt s.widx.isLt) (h.trans (if_neg hfull))

/-- A push into a full ring overwrites a listed slot; before that it lists the slot at `widx`, the fourth of which
completes the ring. -/
theorem ringShape_writeFall {s : State} (h : RingShape s) : RingShape (writeFall s s) := by
  rw [RingShape, writeFall_slots, writeFall_full, writeFall_widx]
  by_cases hfull : s.full = true
  · have hall : s.slots.map Prod.fst = List.range 4 := h.trans (if_pos hfull)
    have hlisted : s.widx.toNat ∈ s.slots.map Prod.fst := by
      rw [hall]
      exact List.mem_range.mpr s.widx.isLt
    have hrising : (s.slots.map Prod.fst).Pairwise (· < ·) := by
      rw [hall]
      exact List.pairwise_lt_range
    rw [Memory.map_fst_write_of_mem s.cnt hrising hlisted, if_pos (fullAfterAdd_eq_true_iff.mpr (.inl hfull))]
    exact hall
  · have hbelow : s.slots.map Prod.fst = List.range s.widx.toNat := h.trans (if_neg hfull)
    have hlt : ∀ b ∈ s.slots.map Prod.fst, b < s.widx.toNat := by
      rw [hbelow]
      exact fun b hb => List.mem_range.mp hb
    have hpushed : (Memory.write s.slots s.widx.toNat s.cnt).map Prod.fst = List.range (s.widx.toNat + 1) := by
      rw [Memory.write_of_forall_lt s.cnt hlt, List.map_append, hbelow, List.range_succ]
      rfl
    rw [hpushed]
    by_cases hlast : s.widx = 3#2
    · rw [if_pos (fullAfterAdd_eq_true_iff.mpr (.inr hlast)), hlast]
      rfl
    · have hnext : (s.widx + 1#2).toNat = s.widx.toNat + 1 := by
        rw [toNat_widx_add_one]
        have hne : s.widx.toNat ≠ 3 := fun h3 => hlast (BitVec.eq_of_toNat_eq h3)
        have hlt4 := s.widx.isLt
        omega
      rw [if_neg (mt fullAfterAdd_eq_true_iff.mp (not_or.mpr ⟨hfull, hlast⟩)), hnext]

/-- A cycle's ring is that of FALL alone or the ring as it was. -/
theorem ringShape_writeCycle {s : State} (h : RingShape s) (pin tick : Bool) (cmd : BitVec 3) :
    RingShape (writeCycle pin tick cmd s) := by
  obtain ⟨hslots, hwidx, hfull⟩ := writeCycle_ring pin tick cmd s
  rw [RingShape, hslots, hwidx, hfull]
  by_cases hfall : s.falls pin = true
  · rw [if_pos hfall, if_pos hfall, if_pos hfall]
    exact ringShape_writeFall h
  · rw [if_neg hfall, if_neg hfall, if_neg hfall]
    exact h

/-- Settles O53: a reset lists no slot; a cycle by `ringShape_writeCycle`. -/
theorem stepKeepsTheRingShape : Obligations.StepKeepsTheRingShape := by
  refine ⟨fun s t hs hstep => ?_, fun _ => wf_of_ringShape⟩
  rcases step_inversion hstep with ⟨-, rfl⟩ | ⟨-, rfl⟩
  · exact List.map_nil
  · exact ringShape_writeCycle (s := takeWord s) hs _ _ _

theorem writeCycle_wf {s : State} (h : Memory.wf s.slots = true) (pin tick : Bool) (cmd : BitVec 3) :
    Memory.wf (writeCycle pin tick cmd s).slots = true := by
  obtain ⟨hslots, -⟩ := writeCycle_ring pin tick cmd s
  rw [hslots]
  split
  · exact Memory.wf_write s.cnt h s.widx.isLt
  · exact h

/-- The ring's writers push at a slot address or empty the list; every other operation leaves it. -/
theorem exec_wf {i : Instr} {s t : State} (hs : Memory.wf s.slots = true) (h : exec i s = .next t) :
    Memory.wf t.slots = true := by
  by_cases hi : leavesRing i = true
  · obtain ⟨hslots, -⟩ := exec_of_leavesRing hi h
    rw [hslots]
    exact hs
  · cases i with
    | fall run tick => cases h; exact writeAdd_wf s.cnt s _ hs
    | add v => cases h; exact writeAdd_wf v s s hs
    | reset => cases h; exact Memory.wf_nil
    | step rst pin tick cmd =>
      cases rst with
      | true => cases h; exact Memory.wf_nil
      | false => cases h; exact writeCycle_wf hs pin tick cmd
    | _ => exact absurd rfl hi

/-- Settles O54: a step is STEP executed with the word taken. -/
theorem memoryStaysCanonical : Obligations.MemoryStaysCanonical :=
  ⟨fun _ _ _ => exec_wf, fun s _ hs h => exec_wf (s := takeWord s) hs h⟩

end Sys2Proof.Machine
end

section
/-! PROOF. The pushes since reset (10_state.md R37, R40): their number in `widx` and `full`, and the most recent of them in
the slots; and the base case of the invariants at reset. -/

namespace Sys2Proof.Machine

/-- One push more: the index wraps with the count modulo 4, and the fourth push is the first into slot 3. -/
theorem ringCount_writeFall {p : Nat} {s : State} (h : RingCount p s) : RingCount (p + 1) (writeFall s s) := by
  obtain ⟨hwidx, hfull⟩ := h
  rw [RingCount, writeFall_widx, writeFall_full, toNat_widx_add_one, fullAfterAdd_eq_true_iff, hfull,
    ← BitVec.toNat_inj, hwidx, BitVec.toNat_ofNat]
  omega

theorem ringCount_writeCycle {p : Nat} {s : State} (h : RingCount p s) (pin tick : Bool) (cmd : BitVec 3) :
    RingCount (if s.falls pin then p + 1 else p) (writeCycle pin tick cmd s) := by
  obtain ⟨-, hwidx, hfull⟩ := writeCycle_ring pin tick cmd s
  rw [RingCount, hwidx, hfull]
  by_cases hfall : s.falls pin = true
  · rw [if_pos hfall, if_pos hfall, if_pos hfall]
    exact ringCount_writeFall h
  · rw [if_neg hfall, if_neg hfall, if_neg hfall]
    exact h

/-- An empty ring has had no push. -/
theorem ringCount_zero {s : State} (hwidx : s.widx = 0#2) (hfull : s.full = false) : RingCount 0 s := by
  simp [RingCount, hwidx, hfull]

/-- Settles O56: a reset empties the ring; a cycle by `ringCount_writeCycle`. -/
theorem widxAndFullCountThePushes : Obligations.WidxAndFullCountThePushes := by
  intro p s t hs hstep
  rcases step_inversion hstep with ⟨hrst, rfl⟩ | ⟨hrst, rfl⟩
  · rw [hrst, if_pos rfl]
    exact ringCount_zero (writeReset_widx _) (writeReset_full _)
  · rw [hrst, if_neg Bool.false_ne_true]
    exact ringCount_writeCycle (s := takeWord s) hs _ _ _

theorem holdsHistory_nil {s : State} (hwidx : s.widx = 0#2) (hfull : s.full = false) : HoldsHistory [] s :=
  ⟨ringCount_zero hwidx hfull, fun _ hj => absurd hj (Nat.not_lt_zero _)⟩

/-- The index after `p` pushes is the slot of the next. -/
theorem widx_eq_ofNat {p : Nat} {s : State} (h : RingCount p s) : s.widx = BitVec.ofNat 2 p :=
  BitVec.eq_of_toNat_eq h.1

/-- Of the last four pushes only the fourth last is in the slot of the next. -/
theorem ofNat_sub_ne {p j : Nat} (hp : j < p) (hj : j + 1 < 4) : BitVec.ofNat 2 (p - 1 - j) ≠ BitVec.ofNat 2 p := by
  rw [Ne, ← BitVec.toNat_inj, BitVec.toNat_ofNat, BitVec.toNat_ofNat]
  omega

/-- A push puts the count in the slot of the next push, and every earlier one but the fourth last keeps its slot. -/
theorem holdsHistory_cons {h : List Sample} {s t : State} (hs : HoldsHistory h s) (hcount : RingCount (h.length + 1) t)
    (hslot : ∀ i, t.slot i = if i = s.widx then s.cnt else s.slot i) : HoldsHistory (s.cnt :: h) t := by
  obtain ⟨hcount', hheld⟩ := hs
  have hwidx := widx_eq_ofNat hcount'
  refine ⟨hcount, fun j hj hj4 => ?_⟩
  rw [hslot, hwidx]
  cases j with
  | zero => exact if_pos rfl
  | succ j =>
    have hjh : j < h.length := Nat.lt_of_succ_lt_succ hj
    have hidx : (s.cnt :: h).length - 1 - (j + 1) = h.length - 1 - j := by
      rw [List.length_cons]
      omega
    rw [hidx, if_neg (ofNat_sub_ne hjh hj4), hheld j hjh (Nat.lt_of_succ_lt hj4), List.getElem_cons_succ]

/-- A cycle that does not fall pushes nothing, one that falls the count of its pre-state. -/
theorem holdsHistory_writeCycle {h : List Sample} {s : State} (hs : HoldsHistory h s) (pin tick : Bool)
    (cmd : BitVec 3) :
    HoldsHistory (if s.falls pin then s.cnt :: h else h) (writeCycle pin tick cmd s) := by
  obtain ⟨hcount', hheld⟩ := hs
  have hcount := ringCount_writeCycle hcount' pin tick cmd
  have hslot := writeCycle_slot pin tick cmd s
  by_cases hfall : s.falls pin = true
  · rw [if_pos hfall] at hcount ⊢
    exact holdsHistory_cons ⟨hcount', hheld⟩ hcount fun i => by simpa [hfall] using hslot i
  · rw [if_neg hfall] at hcount ⊢
    exact ⟨hcount, fun j hj hj4 => ((hslot _).trans (if_neg (mt And.left hfall))).trans (hheld j hj hj4)⟩

/-- Settles O57: a reset forgets the pushes; a cycle by `holdsHistory_writeCycle`. -/
theorem ringHoldsTheMostRecentSamples : Obligations.RingHoldsTheMostRecentSamples := by
  intro h s t hs hstep
  rcases step_inversion hstep with ⟨hrst, rfl⟩ | ⟨hrst, rfl⟩
  · rw [historyAfter, hrst, if_pos rfl]
    exact holdsHistory_nil (writeReset_widx _) (writeReset_full _)
  · rw [historyAfter, hrst, if_neg Bool.false_ne_true]
    exact holdsHistory_writeCycle (s := takeWord s) hs _ _ _

/-- Settles O55: at reset nothing runs, events are disabled and no slot is listed. -/
theorem resetStateSatisfiesTheInvariants : Obligations.ResetStateSatisfiesTheInvariants :=
  ⟨fun hrun => absurd hrun Bool.false_ne_true, fun hon => absurd hon Bool.false_ne_true, rfl, reset_slots_wf,
    holdsHistory_nil rfl rfl, rfl⟩

end Sys2Proof.Machine
end

section
/-! PROOF. No output depends on the unspecified reset contents (10_state.md R38): a step of two states that agree but for
the slots not yet written and `snap`. -/

namespace Sys2Proof.Machine

/-- A slot counts as written after a cycle only if its FALL wrote it, or it was written before. -/
theorem written_writeCycle {pin tick : Bool} {cmd : BitVec 3} {s : State} {i : SlotIdx}
    (h : (writeCycle pin tick cmd s).written i = true) :
    (s.falls pin = true ∧ i = s.widx) ∨ s.written i = true := by
  obtain ⟨-, hwidx, hfull⟩ := writeCycle_ring pin tick cmd s
  rw [State.written, hwidx, hfull] at h
  by_cases hfall : s.falls pin = true
  · by_cases hi : i = s.widx
    · exact .inl ⟨hfall, hi⟩
    · right
      rw [if_pos hfall, if_pos hfall, Bool.or_eq_true, fullAfterAdd_eq_true_iff, decide_eq_true_iff,
        toNat_widx_add_one] at h
      rw [State.written, Bool.or_eq_true, decide_eq_true_iff]
      have hne : i.toNat ≠ s.widx.toNat := mt BitVec.eq_of_toNat_eq hi
      have hi4 := i.isLt
      rcases h with (hfull | hlast) | hbelow
      · exact .inl hfull
      · right
        rw [hlast] at hne ⊢
        simp only [BitVec.toNat_ofNat] at hne ⊢
        omega
      · right
        omega
  · rw [if_neg hfall, if_neg hfall] at h
    exact .inr h

theorem written_of_full {s : State} (h : s.full = true) (i : SlotIdx) : s.written i = true := by
  simp [State.written, h]

section
variable {s u : State}

theorem SameButResetContents.fetchWord_eq (h : SameButResetContents s u) : fetchWord s = fetchWord u := by
  rw [fetchWord, fetchWord, h.stim, h.cycle]

theorem SameButResetContents.takeWord (h : SameButResetContents s u) :
    SameButResetContents (takeWord s) (takeWord u) :=
  { h with stim := congrArg List.tail h.stim, cycle := congrArg (· + 1) h.cycle }

theorem SameButResetContents.rises_eq (h : SameButResetContents s u) (pin : Bool) : s.rises pin = u.rises pin := by
  rw [State.rises, State.rises, h.irqEn, h.pinQ]

theorem SameButResetContents.falls_eq (h : SameButResetContents s u) (pin : Bool) : s.falls pin = u.falls pin := by
  rw [State.falls, State.falls, h.irqEn, h.pinQ]

/-- The median is of written slots, and the sentinel of none. -/
theorem SameButResetContents.medianOrZero_eq (h : SameButResetContents s u) : medianOrZero s = medianOrZero u := by
  cases hs : s.full with
  | false =>
    have hu : u.full = false := h.full.symm.trans hs
    rw [medianOrZero_of_not_full hs, medianOrZero_of_not_full hu]
  | true =>
    have hu : u.full = true := h.full.symm.trans hs
    have hslot (i : SlotIdx) : s.slot i = u.slot i := h.slot i (written_of_full hs i)
    rw [medianOrZero_of_full hs, medianOrZero_of_full hu, hslot, hslot, hslot, hslot]

/-- RESET makes every slot unwritten. -/
theorem SameButResetContents.writeReset (h : SameButResetContents s u) :
    SameButResetContents (writeReset s) (writeReset u) where
  irqEn := rfl
  run := rfl
  cnt := rfl
  pinQ := rfl
  widx := rfl
  full := rfl
  slot i hi := by simp [State.written] at hi
  result := rfl
  rvalid := rfl
  inited := rfl
  stim := h.stim
  cycle := h.cycle

/-- Every field a cycle writes, it writes from fields the two states agree in; a slot it makes count as written it
writes. -/
theorem SameButResetContents.writeCycle (h : SameButResetContents s u) (pin tick : Bool) (cmd : BitVec 3) :
    SameButResetContents (writeCycle pin tick cmd s) (writeCycle pin tick cmd u) := by
  obtain ⟨-, hwidx, hfull⟩ := writeCycle_ring pin tick cmd s
  obtain ⟨-, hwidx', hfull'⟩ := writeCycle_ring pin tick cmd u
  obtain ⟨hinited, -⟩ := writeCycle_inited_reinit pin tick cmd s
  obtain ⟨hinited', -⟩ := writeCycle_inited_reinit pin tick cmd u
  obtain ⟨hstim, hcycle, -⟩ := writeCycle_stim_cycle_draw pin tick cmd s
  obtain ⟨hstim', hcycle', -⟩ := writeCycle_stim_cycle_draw pin tick cmd u
  constructor
  case irqEn => rw [writeCycle_irqEn, writeCycle_irqEn, h.irqEn]
  case run => rw [writeCycle_run, writeCycle_run, h.rises_eq, h.falls_eq, h.run]
  case cnt => rw [writeCycle_cnt, writeCycle_cnt, h.rises_eq, h.falls_eq, h.run, h.cnt]
  case pinQ => rw [writeCycle_pinQ, writeCycle_pinQ]
  case widx => rw [hwidx, hwidx', h.falls_eq, h.widx]
  case full => rw [hfull, hfull', h.falls_eq, h.widx, h.full]
  case slot =>
    intro i hi
    rw [writeCycle_slot, writeCycle_slot, ← h.falls_eq, ← h.widx, ← h.cnt]
    by_cases hpush : s.falls pin = true ∧ i = s.widx
    · rw [if_pos hpush, if_pos hpush]
    · rw [if_neg hpush, if_neg hpush, h.slot i ((written_writeCycle hi).resolve_left hpush)]
  case result => rw [writeCycle_result, writeCycle_result, h.medianOrZero_eq, h.result]
  case rvalid => rw [writeCycle_rvalid, writeCycle_rvalid]
  case inited => rw [hinited, hinited', h.inited]
  case stim => rw [hstim, hstim', h.stim]
  case cycle => rw [hcycle, hcycle', h.cycle]

end

/-- Settles O58: both states take the one word, and `result` and `rvalid` agree after it. -/
theorem noOutputDependsOnResetContents : Obligations.NoOutputDependsOnResetContents := by
  intro s u t h hstep
  have hsame : ∃ v, step u = .next v ∧ SameButResetContents t v := by
    refine ⟨_, step_answers u, ?_⟩
    rw [← h.fetchWord_eq]
    rcases step_inversion hstep with ⟨hrst, rfl⟩ | ⟨hrst, rfl⟩
    · rw [hrst, if_pos rfl]
      exact h.takeWord.writeReset
    · rw [hrst, if_neg Bool.false_ne_true]
      exact h.takeWord.writeCycle _ _ _
  obtain ⟨v, hv, hsame⟩ := hsame
  exact ⟨v, hv, hsame, hsame.result, hsame.rvalid⟩

end Sys2Proof.Machine
end

section
/-! PROOF. Whole runs: what a pulse pushes (40_capture.md R86), and what GETVALUE returns after four equal ones
(43_decoder_api.md R118). -/

namespace Sys2Proof.Machine

/-- A run's first step. -/
theorem run_succ_of_step (M : Host.Core) {n : Nat} {s s' : M.State} (h : M.step s = .next s') :
    M.run (n + 1) s = M.run n s' := by
  rw [Host.Core.run, h]

/-- A run's first `m` steps, when none of them stops. -/
theorem run_add_of_run (M : Host.Core) {m n : Nat} {s t : M.State} (h : M.run m s = .next t) :
    M.run (m + n) s = M.run n t := by
  induction m generalizing s with
  | zero =>
    cases h
    rw [Nat.zero_add]
  | succ m ih =>
    rw [Nat.succ_add]
    cases hstep : M.step s with
    | next s' =>
      rw [run_succ_of_step M hstep] at h ⊢
      exact ih h
    | fault r =>
      rw [Host.Core.run, hstep] at h
      cases h
    | refused r =>
      rw [Host.Core.run, hstep] at h
      cases h

/-- `n` steps lead from `s` to `t`. -/
def Reaches (n : Nat) (s t : State) : Prop := Host.Core.run Sys2Proof.core n s = .next t

theorem reaches_zero (s : State) : Reaches 0 s s := rfl

theorem Reaches.trans {m n : Nat} {s t u : State} (hst : Reaches m s t) (htu : Reaches n t u) :
    Reaches (m + n) s u :=
  (run_add_of_run Sys2Proof.core hst).trans htu

theorem reaches_one {s t : State} (h : step s = .next t) : Reaches 1 s t := run_succ_of_step Sys2Proof.core h

/-- A scheduled word without reset is a cycle with its inputs. -/
theorem step_of_stim_cycle {s : State} {w : StimWord} {rest : List StimWord} (h : s.stim = w :: rest)
    (hrst : rstIn w = false) : step s = .next (writeCycle (pinIn w) (tickIn w) (cmdIn w) (takeWord s)) := by
  have hfetch : fetchWord s = w := by rw [fetchWord, h]
  rw [step_answers, hfetch, hrst, if_neg Bool.false_ne_true]

/-- The scheduled words after a cycle are those after the one taken. -/
theorem writeCycle_takeWord_stim {s : State} {w : StimWord} {rest : List StimWord} (h : s.stim = w :: rest)
    (pin tick : Bool) (cmd : BitVec 3) : (writeCycle pin tick cmd (takeWord s)).stim = rest := by
  obtain ⟨hstim, -⟩ := writeCycle_stim_cycle_draw pin tick cmd (takeWord s)
  rw [hstim, takeWord_stim, h, List.tail_cons]

/-- The middle of a pulse that began in `s`, `c` ticks counted and the words `rest` to come: `t` measures, its ring
being still that of `s`. -/
structure Measuring (s t : State) (c : Sample) (rest : List StimWord) : Prop where
  irqEn : t.irqEn = true
  pinQ : t.pinQ = true
  run : t.run = true
  cnt : t.cnt = c
  stim : t.stim = rest
  slot : ∀ a, t.slot a = s.slot a
  widx : t.widx = s.widx
  full : t.full = s.full

/-- After a pulse that began in `s`, the words `rest` to come: `t` waits for the next one, its ring being that of `s`
with `v` pushed. -/
structure Pushed (s t : State) (v : Sample) (rest : List StimWord) : Prop where
  irqEn : t.irqEn = true
  pinQ : t.pinQ = false
  run : t.run = false
  stim : t.stim = rest
  slot : ∀ a, t.slot a = if a = s.widx then v else s.slot a
  widx : t.widx = s.widx + 1#2
  full : t.full = fullAfterAdd s.widx s.full

/-- RISE begins a measurement at 0. -/
theorem measuring_of_rise {s : State} {w : StimWord} {rest : List StimWord} (hon : s.irqEn = true)
    (hlow : s.pinQ = false) (hw : HighCycle w) (hstim : s.stim = w :: rest) :
    ∃ t, step s = .next t ∧ Measuring s t 0#8 rest := by
  obtain ⟨hrst, hpin, h1, h2⟩ := hw
  refine ⟨_, step_of_stim_cycle hstim hrst, ?_⟩
  rw [hpin]
  have hrise : s.rises true = true := rises_iff.mpr ⟨hon, hlow, rfl⟩
  have hfall : s.falls true = false := not_falls_of_rises hrise
  obtain ⟨-, hwidx, hfull⟩ := writeCycle_ring_of_not_falls (s := takeWord s) hfall (tickIn w) (cmdIn w)
  exact {
    irqEn := by simp [writeCycle_irqEn, h1, h2, hon]
    pinQ := writeCycle_pinQ _ _ _ _
    run := by simp [writeCycle_run, h1, h2, hrise]
    cnt := by simp [writeCycle_cnt, hrise]
    stim := writeCycle_takeWord_stim hstim _ _ _
    slot := fun a => by simp [writeCycle_slot, hfall]
    widx := hwidx
    full := hfull }

/-- A high cycle of a measurement counts the tick it is offered. -/
theorem Measuring.high_cycle {s t : State} {c : Sample} {w : StimWord} {rest : List StimWord}
    (h : Measuring s t c (w :: rest)) (hw : HighCycle w) :
    ∃ u, step t = .next u ∧ Measuring s u (if tickIn w then c + 1#8 else c) rest := by
  obtain ⟨hrst, hpin, h1, h2⟩ := hw
  refine ⟨_, step_of_stim_cycle h.stim hrst, ?_⟩
  rw [hpin]
  have hrise : t.rises true = false := by simp [State.rises, h.pinQ]
  have hfall : t.falls true = false := by simp [State.falls]
  obtain ⟨-, hwidx, hfull⟩ := writeCycle_ring_of_not_falls (s := takeWord t) hfall (tickIn w) (cmdIn w)
  exact {
    irqEn := by simp [writeCycle_irqEn, h1, h2, h.irqEn]
    pinQ := writeCycle_pinQ _ _ _ _
    run := by simp [writeCycle_run, h1, h2, hrise, hfall, h.run]
    cnt := by simp [writeCycle_cnt, h1, hrise, hfall, h.run, h.cnt]
    stim := writeCycle_takeWord_stim h.stim _ _ _
    slot := fun a => by simp [writeCycle_slot, hfall, h.slot]
    widx := hwidx.trans h.widx
    full := hfull.trans h.full }

/-- FALL ends a measurement and pushes its count. -/
theorem Measuring.fall {s t : State} {c : Sample} {w : StimWord} {rest : List StimWord}
    (h : Measuring s t c (w :: rest)) (hw : LowCycle w) : ∃ u, step t = .next u ∧ Pushed s u c rest := by
  obtain ⟨hrst, hpin, h1, h2⟩ := hw
  refine ⟨_, step_of_stim_cycle h.stim hrst, ?_⟩
  rw [hpin]
  have hfall : t.falls false = true := falls_iff.mpr ⟨h.irqEn, h.pinQ, rfl⟩
  obtain ⟨-, hwidx, hfull⟩ := writeCycle_ring false (tickIn w) (cmdIn w) (takeWord t)
  rw [takeWord_falls, hfall, if_pos rfl] at hwidx hfull
  exact {
    irqEn := by simp [writeCycle_irqEn, h1, h2, h.irqEn]
    pinQ := writeCycle_pinQ _ _ _ _
    run := by simp [writeCycle_run, not_rises_of_falls hfall, hfall]
    stim := writeCycle_takeWord_stim h.stim _ _ _
    slot := fun a => by simp [writeCycle_slot, hfall, h.slot, h.widx, h.cnt]
    widx := by rw [hwidx, takeWord_widx, h.widx]
    full := by rw [hfull, takeWord_widx, takeWord_full, h.widx, h.full] }

/-- A low cycle after a pulse changes nothing of what the pulse left. -/
theorem Pushed.low_cycle {s t : State} {v : Sample} {w : StimWord} {rest : List StimWord}
    (h : Pushed s t v (w :: rest)) (hw : LowCycle w) : ∃ u, step t = .next u ∧ Pushed s u v rest := by
  obtain ⟨hrst, hpin, h1, h2⟩ := hw
  refine ⟨_, step_of_stim_cycle h.stim hrst, ?_⟩
  rw [hpin]
  have hrise : t.rises false = false := by simp [State.rises]
  have hfall : t.falls false = false := by simp [State.falls, h.pinQ]
  obtain ⟨-, hwidx, hfull⟩ := writeCycle_ring_of_not_falls (s := takeWord t) hfall (tickIn w) (cmdIn w)
  exact {
    irqEn := by simp [writeCycle_irqEn, h1, h2, h.irqEn]
    pinQ := writeCycle_pinQ _ _ _ _
    run := by simp [writeCycle_run, hrise, hfall, h.run]
    stim := writeCycle_takeWord_stim h.stim _ _ _
    slot := fun a => by simp [writeCycle_slot, hfall, h.slot]
    widx := hwidx.trans h.widx
    full := hfull.trans h.full }

/-- The high cycles of a pulse add the ticks they are offered, modulo 256. -/
theorem Measuring.high_cycles {s t : State} {c : Sample} {ms rest : List StimWord}
    (h : Measuring s t c (ms ++ rest)) (hms : ∀ m ∈ ms, HighCycle m) :
    ∃ u, Reaches ms.length t u ∧ Measuring s u (c + BitVec.ofNat 8 (ms.countP tickIn)) rest := by
  induction ms generalizing t c with
  | nil => exact ⟨t, reaches_zero t, by simpa using h⟩
  | cons m ms ih =>
    rw [List.forall_mem_cons] at hms
    obtain ⟨hm, hms⟩ := hms
    obtain ⟨t', hstep, ht'⟩ := h.high_cycle hm
    obtain ⟨u, hreach, hu⟩ := ih ht' hms
    have hsum : (if tickIn m then c + 1#8 else c) + BitVec.ofNat 8 (ms.countP tickIn) =
        c + BitVec.ofNat 8 ((m :: ms).countP tickIn) := by
      rw [List.countP_cons, Nat.add_comm (ms.countP tickIn), BitVec.ofNat_add, ← BitVec.add_assoc]
      split <;> simp
    rw [hsum] at hu
    rw [List.length_cons, Nat.add_comm]
    exact ⟨u, (reaches_one hstep).trans hreach, hu⟩

/-- The low cycles after a pulse change nothing of what the pulse left. -/
theorem Pushed.low_cycles {s t : State} {v : Sample} {ls rest : List StimWord} (h : Pushed s t v (ls ++ rest))
    (hls : ∀ l ∈ ls, LowCycle l) : ∃ u, Reaches ls.length t u ∧ Pushed s u v rest := by
  induction ls generalizing t with
  | nil => exact ⟨t, reaches_zero t, h⟩
  | cons l ls ih =>
    rw [List.forall_mem_cons] at hls
    obtain ⟨hl, hls⟩ := hls
    obtain ⟨t', hstep, ht'⟩ := h.low_cycle hl
    obtain ⟨u, hreach, hu⟩ := ih ht' hls
    rw [List.length_cons, Nat.add_comm]
    exact ⟨u, (reaches_one hstep).trans hreach, hu⟩

/-- From RISE to FALL: the ticks offered strictly between are pushed. -/
theorem reaches_pushed {s : State} {w0 w1 : StimWord} {ms rest : List StimWord} (hon : s.irqEn = true)
    (hlow : s.pinQ = false) (hw0 : HighCycle w0) (hms : ∀ m ∈ ms, HighCycle m) (hw1 : LowCycle w1)
    (hstim : s.stim = w0 :: (ms ++ w1 :: rest)) :
    ∃ t, Reaches (ms.length + 2) s t ∧ Pushed s t (BitVec.ofNat 8 (ms.countP tickIn)) rest := by
  obtain ⟨t0, hrise, h0⟩ := measuring_of_rise hon hlow hw0 hstim
  obtain ⟨t1, hcount, h1⟩ := h0.high_cycles hms
  obtain ⟨t, hfall, h⟩ := h1.fall hw1
  have hreach := ((reaches_one hrise).trans hcount).trans (reaches_one hfall)
  rw [Nat.add_comm 1, Nat.add_assoc] at hreach
  rw [BitVec.zero_add] at h
  exact ⟨t, hreach, h⟩

/-- Settles O59: what the run from RISE to FALL leaves, field by field. -/
theorem sampleCountsTheTicksBetweenTheEdges : Obligations.SampleCountsTheTicksBetweenTheEdges := by
  intro s w0 w1 ms rest hon hlow hw0 hms hw1 hstim
  obtain ⟨t, hreach, h⟩ := reaches_pushed hon hlow hw0 hms hw1 hstim
  exact ⟨t, hreach, (h.slot s.widx).trans (if_pos rfl), fun a ha => (h.slot a).trans (if_neg ha), h.widx, h.run, h.irqEn,
    h.pinQ, h.stim⟩

/-- A pulse of `k` ticks, its trailing low cycles included, pushes `k` modulo 256. -/
theorem IsPulse.reaches_pushed {k : Nat} {ws rest : List StimWord} {s : State} (hp : IsPulse k ws)
    (hon : s.irqEn = true) (hlow : s.pinQ = false) (hstim : s.stim = ws ++ rest) :
    ∃ t, Reaches ws.length s t ∧ Pushed s t (BitVec.ofNat 8 k) rest := by
  obtain ⟨w0, ms, w1, ls, rfl, hw0, hms, hw1, hls, rfl⟩ := hp
  have hstim' : s.stim = w0 :: (ms ++ w1 :: (ls ++ rest)) := by simp [hstim]
  obtain ⟨t, hpulse, ht⟩ := Machine.reaches_pushed hon hlow hw0 hms hw1 hstim'
  obtain ⟨u, hidle, hu⟩ := ht.low_cycles hls
  have hlength : (w0 :: (ms ++ w1 :: ls)).length = ms.length + 2 + ls.length := by
    simp only [List.length_cons, List.length_append]
    omega
  rw [hlength]
  exact ⟨u, hpulse.trans hidle, hu⟩

/-- A pulse beginning where another ended. -/
theorem Pushed.next_pulse {s t : State} {k : Nat} {v : Sample} {ws rest : List StimWord}
    (h : Pushed s t v (ws ++ rest)) (hp : IsPulse k ws) :
    ∃ u, Reaches ws.length t u ∧ Pushed t u (BitVec.ofNat 8 k) rest :=
  hp.reaches_pushed h.irqEn h.pinQ h.stim

/-- Four pushes of one value fill the ring with it, whatever the index was. -/
theorem filled_of_four_pushed {s t1 t2 t3 t4 : State} {v : Sample} {r1 r2 r3 r4 : List StimWord}
    (h1 : Pushed s t1 v r1) (h2 : Pushed t1 t2 v r2) (h3 : Pushed t2 t3 v r3) (h4 : Pushed t3 t4 v r4) :
    t4.full = true ∧ ∀ a, t4.slot a = v := by
  have hwidx2 : t2.widx = s.widx + 2#2 := by rw [h2.widx, h1.widx, BitVec.add_assoc]; rfl
  have hwidx3 : t3.widx = s.widx + 3#2 := by rw [h3.widx, hwidx2, BitVec.add_assoc]; rfl
  have hround : ∀ i a : SlotIdx, a = i ∨ a = i + 1#2 ∨ a = i + 2#2 ∨ a = i + 3#2 := by decide
  constructor
  · simp only [h4.full, h3.full, h2.full, h1.full, hwidx3, hwidx2, h1.widx, fullAfterAdd_eq_true_iff]
    rcases hround s.widx 3#2 with h | h | h | h <;> simp [← h]
  · intro a
    simp only [h4.slot, h3.slot, h2.slot, h1.slot, hwidx3, hwidx2, h1.widx]
    rcases hround s.widx a with h | h | h | h <;> simp [← h]

/-- The median of a ring filled with one value is that value. -/
theorem medianOrZero_of_filled {s : State} {v : Sample} (hfull : s.full = true) (hslot : ∀ a, s.slot a = v) :
    medianOrZero s = v := by
  rw [medianOrZero_of_full hfull, hslot, hslot, hslot, hslot]
  exact median4_of_perm_three_equal (.refl _)

/-- Settles O60: the four pulses fill the ring with `k`, whose median GETVALUE re-bases. -/
theorem fourEqualPulsesRoundTrip : Obligations.FourEqualPulsesRoundTrip := by
  intro s k p1 p2 p3 p4 rest w hk hon hlow hp1 hp2 hp3 hp4 hrst hcmd hstim
  simp only [List.append_assoc] at hstim
  obtain ⟨t1, hreach1, h1⟩ := hp1.reaches_pushed hon hlow hstim
  obtain ⟨t2, hreach2, h2⟩ := h1.next_pulse hp2
  obtain ⟨t3, hreach3, h3⟩ := h2.next_pulse hp3
  obtain ⟨t4, hreach4, h4⟩ := h3.next_pulse hp4
  obtain ⟨hfull, hslot⟩ := filled_of_four_pushed h1 h2 h3 h4
  have hread := reaches_one (step_of_stim_cycle h4.stim hrst)
  refine ⟨_, (((hreach1.trans hreach2).trans hreach3).trans hreach4).trans hread, ?result, ?rvalid⟩
  case result =>
    rw [writeCycle_result, if_pos hcmd, medianOrZero_takeWord, medianOrZero_of_filled hfull hslot, rebase,
      toNat_rebaseBy, BitVec.toNat_ofNat, Nat.mod_eq_of_lt hk]
  case rvalid =>
    rw [writeCycle_rvalid]
    exact decide_eq_true (.inl hcmd)

end Sys2Proof.Machine
end
